-- ==== Sys2Proof/Word.lean ====
section
/-! DEFINITION. The word types of the hardware: the 32-bit descriptor word (R66) and the byte of its
serial form. -/

namespace Sys2Proof

/-- A descriptor word, `WORD_BITS` = 32 bits (R66). -/
abbrev Word := BitVec 32

/-- A byte of the serial form of a word; no store of the hardware holds bytes (R43). -/
abbrev Byte := BitVec 8

end Sys2Proof
end

