-- ==== Sys2Proof/Machine/Formats.lean ====
section
/-! DEFINITION. The data formats of 30_encoding.md other than the descriptor word: TimeTuple (R62),
Symbol (R61), TimecodeVector (R61, R63). -/

namespace Sys2Proof

/-- A TimeTuple (R62): what the time source delivers, well formed or not. The fields are naturals,
so that every malformed tuple the spec names (`day = 32` among them) can be written (log entry 11,
DEDUCED). `weekday` 0 is Monday, 6 is Sunday. -/
structure TimeTuple where
  year : Nat
  month : Nat
  day : Nat
  hour : Nat
  minute : Nat
  second : Nat
  weekday : Nat
  deriving DecidableEq, Repr, Inhabited

/-- A Symbol (R61), with the reserved fourth code of its two bits as a name of its own. -/
inductive Symbol where
  | zero
  | one
  | minuteMark
  | reserved3
  deriving DecidableEq, Repr, Inhabited

/-- A TimecodeVector (R61): 60 symbols, index = second of minute. That it has 60 is the check
`vectorWf` of Machine/Ops.lean. -/
abbrev TimecodeVector := List Symbol

end Sys2Proof
end

