-- ==== Sys2Proof/Config.lean ====
section
/-! DEFINITION. The named parameters of R4 with their constraints (R5), the constants R4 fixes, and the
free values of the model. -/

namespace Sys2Proof

/-- The OPEN parameters of R4. They are data, so a claim about every state is a claim about every
choice of them (log entry 4). -/
structure Params where
  /-- `CLOCK_MULT`, written `M`: ticks per carrier cycle (D7). -/
  clockMult : Nat
  /-- `PHASE_TICKS`, written `DELTA` (D8). -/
  phaseTicks : Nat
  /-- `LOW_DRIVE_TICKS`, written `DLOW` (D9). -/
  lowDriveTicks : Nat
  /-- `FIFO_DEPTH` (D11). -/
  fifoDepth : Nat
  /-- `LOOKAHEAD_S` (D32). -/
  lookahead : Nat
  /-- `YEAR_MAX`, the largest year `ENC` accepts (D24; a parameter by U23; log entry 6). -/
  yearMax : Nat
  /-- `PM_SELECT(ZERO, i)`: bit `i` set means `INV` (R129; log entry 5). -/
  pmZero : BitVec 60
  /-- `PM_SELECT(ONE, i)`. -/
  pmOne : BitVec 60
  /-- `PM_SELECT(MINUTE_MARK, i)`. -/
  pmMark : BitVec 60
  deriving DecidableEq, Repr

/-- `H = M / 2` ticks per nominal half-cycle (R4). -/
def Params.halfTicks (p : Params) : Nat := p.clockMult / 2

/-- The constraints of R5. -/
def Params.valid (p : Params) : Bool :=
  p.clockMult % 2 == 0 && decide (2 ≤ p.halfTicks) && decide (p.halfTicks - 2 < 65536)
    && decide (0 < p.phaseTicks) && decide (p.phaseTicks < p.halfTicks) && decide (p.phaseTicks < 256)
    && decide (0 < p.lowDriveTicks) && decide (p.lowDriveTicks < p.halfTicks)
    && decide (1 ≤ p.fifoDepth)

/-- `CLR_PRELOAD = H - 2` (R4). -/
def Params.clrPreload (p : Params) : BitVec 16 := BitVec.ofNat 16 (p.halfTicks - 2)

/-- The worked instance of 00_scope.md section 4 with the default `PM_SELECT` of R129 and R4's values of
`LOOKAHEAD_S` and `YEAR_MAX`. It is the spec's example, not a value the spec gives (log entry 4, DESIGN CHOICE). -/
def Params.worked : Params :=
  { clockMult := 1500, phaseTicks := 65, lowDriveTicks := 93, fifoDepth := 8, lookahead := 60,
    yearMax := 9999, pmZero := 0#60, pmOne := BitVec.allOnes 60, pmMark := 0#60 }

/-- The toy instance of 00_scope.md section 4 (`M = 16`), with the FIFO depth of the spec's test
programs. -/
def Params.toy : Params :=
  { Params.worked with clockMult := 16, phaseTicks := 1, lowDriveTicks := 1 }

namespace Config

/-- `CHIP_COUNT` (R4). -/
def chipCount : Nat := 512
/-- `VECTOR_LEN` (R4). -/
def vectorLen : Nat := 60
/-- `LFSR_MASK` (R4). -/
def lfsrMask : BitVec 9 := 0x110#9
/-- `HC_100MS` (R4). -/
def hc100ms : BitVec 22 := 15500#22
/-- `HC_200MS` (R4). -/
def hc200ms : BitVec 22 := 31000#22
/-- `HC_CHIP` (R4). -/
def hcChip : BitVec 22 := 240#22
/-- `HC_FILLER` (R4). -/
def hcFiller : BitVec 22 := 1120#22
/-- `HALF_OVERHEAD` (R4, D6). -/
def halfOverhead : Nat := 2

/-- `ADVANCE(t, d, seconds)`, the environment function of R181 and R236: the tuple and flag `seconds`
later. Nothing constrains it (log entry 13). -/
opaque advance : TimeTuple → Bool → Nat → TimeTuple × Bool

/-- The value `STOP` leaves in `amp` (R146: unspecified; U9: any value; log entry 8). -/
opaque freeAmp : Nat → Bool
/-- The value `STOP` leaves in `pol` (log entry 8). -/
opaque freePol : Nat → Bool
/-- The value `STOP` leaves in `off` (log entry 8). -/
opaque freeOff : Nat → BitVec 8
/-- The value `STOP` leaves in `X` (log entry 8). -/
opaque freeX : Nat → BitVec 22
/-- The value `STOP` leaves in `Y` (log entry 8). -/
opaque freeY : Nat → BitVec 17
/-- The value `STOP` leaves in `E` (log entry 8). -/
opaque freeE : Nat → BitVec 17

end Config
end Sys2Proof
end

