-- ==== Sys2Proof/Machine/State.lean ====
section
/-! DEFINITION. The state of the machine: every piece 10_state.md gives it, the outputs and implied flags,
and the model's own fields (INVENTORY.md, State). Plain data. -/

namespace Sys2Proof.Machine

/-- The error kinds of R200. They are the model's faults by name only: the spec makes every one of them
non-fatal (R200, R209), so they occur in reports and in what `ENC` answers, and no step of the machine
answers `Outcome.fault` (log entry 23; safe). -/
inductive Fault where
  /-- Code 1 (R201). Raised by `ENC`, hence by `BG.FINISH` and by priming. Safe: reported, never a stop. -/
  | protocolInputError
  /-- Code 2 (R202). Raised by `PUSHNEXT`. Safe: reported, never a stop. -/
  | queueUnderrun
  /-- Code 3 (R203). Raised by `SWAP`. Safe: reported, never a stop. -/
  | scheduleOverrun
  /-- Code 4 (R204). Raised by `BG.START` and by priming. Safe: reported, never a stop. -/
  | timeSourceUnavailable
  deriving DecidableEq, Repr

/-- What the spec refuses (R206, 93_implementation_defined.md): the source gives the situation no
behaviour. Each is safe: the model stops and claims nothing. -/
inductive Refusal where
  /-- An instruction without a meaning; raised by an arm of `exec` only. None is left. -/
  | notModelled (mnemonic : String)
  /-- A dequeued word has `cnt = 0` (R154, U1). Raised by the meanings of `LO` and `HI`. -/
  | reservedCount
  /-- A dequeued `HI` word has `cnt ≥ 2` and `off ≥ CLR + 2` (R154, U2). Raised by the high meanings. -/
  | reservedOffset
  /-- `START` with `clrValid = 0` (R145, U3). Raised by `START`. -/
  | startBeforePreload
  /-- `PRELOAD` with `st ≠ Stopped` (R144, U4). Raised by `PRELOAD`. -/
  | preloadWhileRunning
  /-- `TAB.BUILD` before `patDone` (R127, U8). Raised by `TAB.BUILD`. -/
  | tableBeforePattern
  /-- `LOOKUP` before `tabValid` (R128, U8). Raised by `PUSHNEXT`. -/
  | lookupBeforeTable
  /-- A read of a slot that holds nothing (U8). Raised by `PUSHNEXT`; no reachable state does it. -/
  | slotEmpty
  /-- An index outside a store's range (R40, R44, U10), or a start second outside 0 to 59 (R236). Raised by
  `PUSHNEXT` and `ACTIVATE`. -/
  | indexOutOfRange
  /-- `LOOKUP` of symbol code 3 (R70, U11). Raised by `PUSHNEXT`; no reachable state does it. -/
  | reservedSymbol
  /-- An overrun whose inactive slot was never written (R174, U17). Raised by `SWAP`. -/
  | inactiveSlotNeverWritten
  /-- The time source is unavailable and there is no time base (R181, R233, U18). Raised by `BG.START` and
  by priming. -/
  | noTimeBase
  /-- The parameters are outside their constraints (R5, U28). Raised by `step`. -/
  | parametersOutOfRange
  deriving DecidableEq, Repr

/-- The FSM state of the CarrierSequencer (R16, R147). -/
inductive SeqState where
  | stopped
  | setupDecode
  | highHalf1
  | highHalf2
  | lowHalf1
  | lowHalf2
  deriving DecidableEq, Repr

/-- The state of the MinuteScheduler (R24, R170). -/
inductive FeederState where
  | idle
  | streamingCurrent
  | swapping
  deriving DecidableEq, Repr

/-- The state of this minute's background computation (R28). -/
inductive BgState where
  | bgNone
  | bgRunning
  | bgOk
  | bgInvalid
  deriving DecidableEq, Repr

/-- A background task (R28): the tuple and flag to encode, the slot it will write, and `minuteGen` when it
started. -/
structure Task where
  tuple : TimeTuple
  summer : Bool
  target : Bool
  gen : Nat
  deriving DecidableEq, Repr

/-- The time base (R31): the last tuple and flag the time source delivered, and `minuteGen` at that read. -/
structure TimeBase where
  tuple : TimeTuple
  summer : Bool
  gen : Nat
  deriving DecidableEq, Repr

/-- What an error report carries beside its code (R205). -/
inductive ReportInfo where
  /-- The offending tuple (R201). -/
  | tuple (t : TimeTuple)
  /-- The indices `(i, q)` of the descriptor about to be pushed (R202). -/
  | indices (i q : Nat)
  /-- `minuteGen` (R203). -/
  | generation (g : Nat)
  /-- Nothing (R204). -/
  | nothing
  deriving DecidableEq, Repr

/-- An error report, as handed to the external logging collaborator (R209). -/
structure Report where
  kind : Fault
  info : ReportInfo
  deriving DecidableEq, Repr

/-- An answer of `TS.read` (R176): the lookahead it answers, and `none` for Unavailable (log entry 12). -/
structure TsAnswer where
  asked : Nat
  reading : Option (TimeTuple × Bool)
  deriving DecidableEq, Repr

/-- One move of one agent (R10, R190), with the outside's answer where the move asks for one (R236). -/
inductive Action where
  /-- SEQ: one clock period (R149). -/
  | tick
  /-- Boot: one `LFSR.STEP` (R111). -/
  | lfsrStep
  /-- Boot: `LFSR.GEN` (R112). -/
  | lfsrGen
  /-- Boot: `TAB.BUILD` (R127). -/
  | tabBuild
  /-- Boot: `PRELOAD(v)` (R144). -/
  | preload (v : BitVec 16)
  /-- Boot: `PRIME` (R233), with the time source's answer. -/
  | prime (r : TsAnswer)
  /-- TS: `alignToSecondEdge` returns (R232 step 5). -/
  | edge
  /-- STR: `ACTIVATE` (R171), with the answer of `TS.now().second`. -/
  | activate (second : Nat)
  /-- STR: `PUSHNEXT` (R172). -/
  | pushNext
  /-- STR: `SWAP` (R174). -/
  | swap
  /-- BG: `BG.START` (R175), with the time source's answer. -/
  | bgStart (r : TsAnswer)
  /-- BG: `BG.FINISH` (R177) of the task at this place of `tasks`. -/
  | bgFinish (k : Nat)
  /-- The port `PUSH(w)` (R143). -/
  | push (w : Word)
  /-- The port `START` (R145). -/
  | start
  /-- EXT: the port `STOP` (R146). -/
  | stop
  /-- The port `STATUS` (R142). -/
  | status
  /-- The test harness: the dump of a slot's vector (R220). -/
  | dump (b : Bool)
  deriving DecidableEq, Repr

/-- The machine's state. The names are the spec's; `X`, `Y`, `E`, `PAT`, `TAB`, `CLR` are in lower case. -/
structure State where
  /-- The parameters of R4 (log entry 4); no step writes them. -/
  par : Params
  /-- R12. -/
  lfsr : BitVec 9
  /-- R13. -/
  n : Nat
  /-- R14: element `k` of the chip pattern store is bit `k`. -/
  pat : BitVec 512
  /-- R15. -/
  tab : List Word
  /-- R15. -/
  tabValid : Bool
  /-- R16. -/
  st : SeqState
  /-- R17. -/
  clr : BitVec 16
  /-- R17. -/
  clrValid : Bool
  /-- R18: `true` is HIGH. -/
  amp : Bool
  /-- R18: `true` is negative phase. -/
  pol : Bool
  /-- R18. -/
  off : BitVec 8
  /-- R19. -/
  x : BitVec 22
  /-- R20. -/
  y : BitVec 17
  /-- R20. -/
  e : BitVec 17
  /-- R21. -/
  pins : BitVec 2
  /-- R22: head first. -/
  fifo : List Word
  /-- R24. -/
  ms : FeederState
  /-- R25: `none` is the spec's own reset value of a slot. -/
  slot0 : Option TimecodeVector
  /-- R25. -/
  slot1 : Option TimecodeVector
  /-- R26: `false` is 0. -/
  active : Bool
  /-- R27. -/
  i : Nat
  /-- R27. -/
  q : Nat
  /-- R27. -/
  firstMinute : Bool
  /-- R27. -/
  startOffset : Nat
  /-- R28. -/
  bg : BgState
  /-- R28: in start order (log entry 25). -/
  tasks : List Task
  /-- R28. -/
  minuteGen : Nat
  /-- R29. -/
  pushedAny : Bool
  /-- A `START` has taken effect since reset, so that a `PUSH` is one after `START` (R29; log entry 17). -/
  wasStarted : Bool
  /-- R30. -/
  cntInputErr : Nat
  /-- R30. -/
  cntUnderrun : Nat
  /-- R30. -/
  cntOverrun : Nat
  /-- R30. -/
  cntTimeSrc : Nat
  /-- R31: `none` until the first successful read, which R181 tells apart (log entry 9). -/
  timeBase : Option TimeBase
  /-- The error reports handed out, oldest first (R209, R235; log entry 23). -/
  reports : List Report
  /-- `alignToSecondEdge` has returned for the coming `ACTIVATE` (R171; log entry 14). -/
  edge : Bool
  /-- `PRIME` has been taken (R232; log entry 15). -/
  primed : Bool
  /-- The model's own: numbers the free values (log entry 8). -/
  free : Nat
  /-- The model's own: the coming moves of the agents (log entry 1). -/
  agenda : List Action
  deriving DecidableEq, Repr

/-- The state after reset (R34, R230, R231). `par` is the worked instance (log entry 4); the values of
`pat`, `tab`, `clr`, `amp`, `pol`, `off`, `x`, `y`, `e`, `i`, `q` and `startOffset`, which R34 leaves
unspecified, are the model's (log entry 7, DESIGN CHOICE). -/
def State.reset : State :=
  { par := Params.worked
    lfsr := 0#9
    n := 0
    pat := 0#512
    tab := List.replicate 1028 0#32
    tabValid := false
    st := .stopped
    clr := 0#16
    clrValid := false
    amp := false
    pol := false
    off := 0#8
    x := 0#22
    y := 0#17
    e := 0#17
    pins := 0#2
    fifo := []
    ms := .idle
    slot0 := none
    slot1 := none
    active := false
    i := 0
    q := 0
    firstMinute := true
    startOffset := 0
    bg := .bgNone
    tasks := []
    minuteGen := 0
    pushedAny := false
    wasStarted := false
    cntInputErr := 0
    cntUnderrun := 0
    cntOverrun := 0
    cntTimeSrc := 0
    timeBase := none
    reports := []
    edge := false
    primed := false
    free := 0
    agenda := [] }

/-- What a step or a meaning answers. -/
abbrev Result := Host.Outcome State Fault Refusal

end Sys2Proof.Machine
end

