-- ==== Sys2Proof/Machine/Flags.lean ====
section
/-! DEFINITION. The derived status bits (R13, R23) and what `STATUS` answers (R142). Reading one has no
side effect. -/

namespace Sys2Proof.Machine

/-- `empty = (fifo.len = 0)` (R23). -/
def isEmpty (s : State) : Bool := s.fifo.length == 0

/-- `full = (fifo.len = FIFO_DEPTH)` (R23). -/
def isFull (s : State) : Bool := s.fifo.length == s.par.fifoDepth

/-- `running = (st ≠ Stopped)` (R23). -/
def isRunning (s : State) : Bool := s.st != .stopped

/-- `patDone`: `n = 512` (R13). -/
def patDone (s : State) : Bool := s.n == Config.chipCount

/-- What `STATUS` answers (R142): `(empty, full, running)`. -/
def status (s : State) : Bool × Bool × Bool := (isEmpty s, isFull s, isRunning s)

end Sys2Proof.Machine
end

