-- ==== Sys2Proof/Machine/Ops.lean ====
section
/-! DEFINITION. The named operations over the stores and registers (R40, R46), raising an error (R209),
and the canonical shape of the stores. The hardware has no return from an error (R210). -/

namespace Sys2Proof.Machine

/-! ## Errors -/

/-- The code of an error kind (R200, D25). -/
def errorCode : Fault → Nat
  | .protocolInputError => 1
  | .queueUnderrun => 2
  | .scheduleOverrun => 3
  | .timeSourceUnavailable => 4

/-- One more if the kinds agree. -/
def bump (k k' : Fault) (c : Nat) : Nat := if k = k' then c + 1 else c

/-- `raise E(info)` (R209): the kind's counter goes up by one and the report is handed out; nothing is
saved, no mode changes, and the raising step goes on with its next statement. -/
def raiseError (k : Fault) (info : ReportInfo) (s : State) : State :=
  { s with
    cntInputErr := bump k .protocolInputError s.cntInputErr
    cntUnderrun := bump k .queueUnderrun s.cntUnderrun
    cntOverrun := bump k .scheduleOverrun s.cntOverrun
    cntTimeSrc := bump k .timeSourceUnavailable s.cntTimeSrc
    reports := s.reports ++ [⟨k, info⟩] }

/-! ## The FIFO (R46) -/

/-- `fifo.push(w)`: appends at the tail. -/
def fifoPush (w : Word) (s : State) : State := { s with fifo := s.fifo ++ [w] }

/-- The state after `fifo.pop()`; the word it returns is the head. -/
def fifoPop (s : State) : State := { s with fifo := s.fifo.tail }

/-- `fifo.clear()`. -/
def fifoClear (s : State) : State := { s with fifo := [] }

/-! ## The slots (R25, R50) -/

/-- `slot[b]`. -/
def slotAt (s : State) (b : Bool) : Option TimecodeVector := if b then s.slot1 else s.slot0

/-- `slot[b] <- v`: one atomic replacement of the whole slot (R50). -/
def setSlot (b : Bool) (v : TimecodeVector) (s : State) : State :=
  { s with slot0 := if b then s.slot0 else some v, slot1 := if b then some v else s.slot1 }

/-! ## The other stores -/

/-- `PAT[k]` (R14); `true` is chip 1. -/
def patAt (s : State) (k : Nat) : Bool := s.pat.getLsbD k

/-- `INV[k] = 1 - PAT[k]` (R114). -/
def invAt (s : State) (k : Nat) : Bool := !patAt s k

/-- A 512-bit store with element `k` replaced. -/
def setBit (v : BitVec 512) (k : Nat) (b : Bool) : BitVec 512 :=
  (v &&& ~~~(1#512 <<< k)) ||| (if b then 1#512 <<< k else 0#512)

/-- `TAB[a]` (R15), for `a` in the table. -/
def tabAt (s : State) (a : Nat) : Word := s.tab.getD a 0#32

/-! ## The shape of the stores -/

/-- A vector has 60 symbols (R61). -/
def vectorWf (v : TimecodeVector) : Bool := v.length == Config.vectorLen

/-- The canonical shape of the five stores (R40): 1028 table words, whole vectors in the slots, at most
`FIFO_DEPTH` words queued, at most 512 chips emitted. (There is no byte-addressed memory.) -/
def Memory.wf (s : State) : Bool :=
  s.tab.length == 1028 && s.slot0.all vectorWf && s.slot1.all vectorWf
    && decide (s.fifo.length ≤ s.par.fifoDepth) && decide (s.n ≤ Config.chipCount)

end Sys2Proof.Machine
end

