-- ==== Sys2Proof/Machine/Lfsr.lean ====
section
/-! DEFINITION. The PhaseChipSequencer (41_phase_chip_lfsr.md). -/

namespace Sys2Proof.Machine

/-- The chip a register value emits: `lfsr and 1` (R111); `true` is chip 1. -/
def chipOf (v : BitVec 9) : Bool := v.getLsbD 0

/-- The register after a step (R111): shifted right by one, and XORed with the mask if the chip was 1 or
the shifted value is 0. -/
def lfsrNext (v : BitVec 9) : BitVec 9 :=
  if chipOf v || v >>> 1 == 0#9 then (v >>> 1) ^^^ Config.lfsrMask else v >>> 1

/-- The statements of `LFSR.STEP` (R111). -/
def lfsrStep (s : State) : State :=
  { s with pat := setBit s.pat s.n (chipOf s.lfsr), lfsr := lfsrNext s.lfsr, n := s.n + 1 }

/-- `k` times `LFSR.STEP`. -/
def lfsrSteps : Nat → State → State
  | 0, s => s
  | k + 1, s => lfsrSteps k (lfsrStep s)

/-- `LFSR.STEP` (R111), enabled only when `n < 512`. -/
def doLfsrStep (s : State) : Result :=
  .next (if s.n < Config.chipCount then lfsrStep s else s)

/-- `LFSR.GEN` (R112): 512 steps, enabled at the start value of R110 (log entry 16). -/
def doLfsrGen (s : State) : Result :=
  .next (if s.n = 0 ∧ s.lfsr = 0#9 then lfsrSteps Config.chipCount s else s)

end Sys2Proof.Machine
end

