-- ==== Sys2Proof/Machine/Encoder.lean ====
section
/-! DEFINITION. The TimecodeEncoder (40_timecode_encoder.md) and the diagnostic dump (R74). The encoder
has no state (R11). -/

namespace Sys2Proof.Machine

/-- `ENC.VALID` (R81): every field inside its range of R62, the year's being 0 to `YEAR_MAX`; no cross-field
check. -/
def validTuple (yearMax : Nat) (t : TimeTuple) : Bool :=
  decide (t.year ≤ yearMax) && decide (1 ≤ t.month) && decide (t.month ≤ 12)
    && decide (1 ≤ t.day) && decide (t.day ≤ 31) && decide (t.hour ≤ 23) && decide (t.minute ≤ 59)
    && decide (t.second ≤ 59) && decide (t.weekday ≤ 6)

/-- The four bits of a decimal digit, least significant first (R64). -/
def digitBits (d : Nat) : List Bool := [d.testBit 0, d.testBit 1, d.testBit 2, d.testBit 3]

/-- `bcd(v, w)` (R84). -/
def bcd (v w : Nat) : List Bool := (digitBits (v % 10) ++ digitBits (v / 10)).take w

/-- The sum of a slice modulo 2 (R86, R88, R93). -/
def parity (bits : List Bool) : Bool := bits.count true % 2 == 1

/-- `ENC.CONST` and `ENC.Z`, positions 0 to 20 (R82, R83). -/
def headBits (summer : Bool) : List Bool :=
  List.replicate 17 false ++ [summer, !summer] ++ [false, true]

/-- `ENC.MIN`, positions 21 to 27 (R85). -/
def minuteBits (t : TimeTuple) : List Bool := bcd t.minute 7

/-- `ENC.HOUR`, positions 29 to 34 (R87). -/
def hourBits (t : TimeTuple) : List Bool := bcd t.hour 6

/-- `ENC.DAY`, `ENC.WDAY`, `ENC.MON`, `ENC.YEAR`, positions 36 to 57 (R89 to R92). -/
def dateBits (t : TimeTuple) : List Bool :=
  bcd t.day 6 ++ bcd (t.weekday + 1) 3 ++ bcd t.month 5 ++ bcd (t.year % 100) 8

/-- A slice followed by its parity bit (R86, R88, R93). -/
def withParity (bits : List Bool) : List Bool := bits ++ [parity bits]

/-- Positions 0 to 58 (R95). -/
def encBits (t : TimeTuple) (summer : Bool) : List Bool :=
  headBits summer ++ withParity (minuteBits t) ++ withParity (hourBits t) ++ withParity (dateBits t)

/-- `sym(0) = ZERO`, `sym(1) = ONE` (R64). -/
def symOf (b : Bool) : Symbol := if b then .one else .zero

/-- `ENC(t, isSummerTime)` (R80, R95): a vector, or `ProtocolInputError` and no vector. -/
def enc (yearMax : Nat) (t : TimeTuple) (summer : Bool) : Except Fault TimecodeVector :=
  if validTuple yearMax t then .ok ((encBits t summer).map symOf ++ [.minuteMark])
  else .error .protocolInputError

/-- The two bits a symbol is stored as (R61). -/
def symbolCode : Symbol → BitVec 2
  | .zero => 0#2
  | .one => 1#2
  | .minuteMark => 2#2
  | .reserved3 => 3#2

/-- A symbol's character (R61). Code 3 has none in the spec: `?` here, and no
vector `ENC` returns holds it (log entry 24). -/
def symbolChar : Symbol → Char
  | .zero => '0'
  | .one => '1'
  | .minuteMark => 'M'
  | .reserved3 => '?'

/-- The positions the dump sets a space before (R74). -/
def dumpBreaks : List Nat := [1, 15, 16, 17, 18, 19, 20, 21, 28, 29, 35, 36, 42, 45, 50, 58, 59]

/-- The dump from position `p` on. -/
def dumpFrom (p : Nat) : TimecodeVector → List Char
  | [] => []
  | x :: rest => (if dumpBreaks.contains p then [' ', symbolChar x] else [symbolChar x]) ++ dumpFrom (p + 1) rest

/-- The diagnostic dump of a vector (R74). -/
def dumpVector (v : TimecodeVector) : List Char := dumpFrom 0 v

/-- The decoded value of a BCD field (R99): `n1` bits of ones and `n10` bits of tens from position `lo`. -/
def bitsValue : List Bool → Nat
  | [] => 0
  | b :: rest => (if b then 1 else 0) + 2 * bitsValue rest

/-- `val(lo, n1, n10)` of R99. -/
def fieldValue (v : TimecodeVector) (lo n1 n10 : Nat) : Nat :=
  bitsValue (((v.drop lo).take n1).map (· == .one))
    + 10 * bitsValue (((v.drop (lo + n1)).take n10).map (· == .one))

end Sys2Proof.Machine
end

