-- ==== Sys2Proof/Syntax.lean ====
section
/-! DEFINITION. The descriptors of spec/opcode_table.json, one constructor per row. -/

namespace Sys2Proof

/-- A descriptor. `cnt` is the count of half-cycles (R69), `off` the unsigned phase offset and `pol` its
polarity, `true` for negative phase (R68). The last six are the pseudo-descriptors of R73, each another
name of the words of a `lo` or `hi`. -/
inductive Instr where
  /-- `LO cnt` (R151); `off` and `pol` have no effect (R68, R70). -/
  | lo (cnt : BitVec 22) (off : BitVec 8) (pol : Bool)
  /-- `HI cnt`, `HI cnt, +off`, `HI cnt, -off` (R152). -/
  | hi (cnt : BitVec 22) (off : BitVec 8) (pol : Bool)
  /-- `L100` = `LO 15500` (R121). -/
  | l100
  /-- `L200` = `LO 31000` (R122). -/
  | l200
  /-- `H100` = `HI 15500` (R123). -/
  | h100
  /-- `HS` = `HI 1120` (R124). -/
  | hs
  /-- `PMP` = `HI 240, +off` (R125). -/
  | pmp (off : BitVec 8)
  /-- `PMN` = `HI 240, -off` (R125). -/
  | pmn (off : BitVec 8)
  deriving DecidableEq, Repr

end Sys2Proof
end

