-- ==== Sys2Proof/WellFormed.lean ====
section
/-! DEFINITION. Which terms of `Instr` are well formed: those a word decodes to. A word that is one of
the table's pseudo-descriptors has the pseudo-descriptor's name, so the `lo` and `hi` terms with the
same word are not well formed (log entry 19). Every value of every operand field is admitted: a reserved
value (R70) decodes and is refused when it is executed. -/

namespace Sys2Proof

/-- The check. -/
def Instr.wf : Instr → Bool
  | .lo cnt off pol => !(!pol && off == 0#8 && (cnt == 15500#22 || cnt == 31000#22))
  | .hi cnt off pol => !(cnt == 240#22) && !(!pol && off == 0#8 && (cnt == 15500#22 || cnt == 1120#22))
  | .l100 => true
  | .l200 => true
  | .h100 => true
  | .hs => true
  | .pmp _ => true
  | .pmn _ => true

end Sys2Proof
end

