-- ==== Sys2Proof/Decode.lean ====
section
/-! DEFINITION. The decoder of descriptor words (R66, R67, R73), total on words and on bytes, and after
it the encoder, written from the same field table of R66. -/

namespace Sys2Proof

/-- The `amp` field, bit 0 (R66). -/
def ampOf (w : Word) : Bool := w.getLsbD 0

/-- The `pol` field, bit 1 (R66). -/
def polOf (w : Word) : Bool := w.getLsbD 1

/-- The `off` field, bits 9:2 (R66). -/
def offOf (w : Word) : BitVec 8 := w.extractLsb' 2 8

/-- The `cnt` field, bits 31:10 (R66). -/
def cntOf (w : Word) : BitVec 22 := w.extractLsb' 10 22

/-- The low path: `amp = 0` selects `LO` (R67), under the name of a pseudo-descriptor where the whole
word is one (R73). -/
def decodeLow (cnt : BitVec 22) (off : BitVec 8) (pol : Bool) : Instr :=
  if pol = false ∧ off = 0#8 ∧ cnt = 15500#22 then .l100
  else if pol = false ∧ off = 0#8 ∧ cnt = 31000#22 then .l200
  else .lo cnt off pol

/-- The high path: `amp = 1` selects `HI` (R67), under the name of a pseudo-descriptor where the word
matches that row of the table (R73). -/
def decodeHigh (cnt : BitVec 22) (off : BitVec 8) (pol : Bool) : Instr :=
  if cnt = 240#22 then (if pol then .pmn off else .pmp off)
  else if pol = false ∧ off = 0#8 ∧ cnt = 15500#22 then .h100
  else if pol = false ∧ off = 0#8 ∧ cnt = 1120#22 then .hs
  else .hi cnt off pol

/-- The decoder: every 32-bit value decodes to exactly one descriptor (R67). -/
def decodeWord (w : Word) : Instr :=
  if ampOf w then decodeHigh (cntOf w) (offOf w) (polOf w)
  else decodeLow (cntOf w) (offOf w) (polOf w)

/-- Why a sequence of bytes is no descriptor. -/
inductive DecodeError where
  /-- Fewer than the four bytes of a word (R71) are left; `have_` says how many. -/
  | truncated (have_ : Nat)
  deriving DecidableEq, Repr

/-- The word whose serial form is these four bytes, the first being bits 7:0. The spec stores no word as
bytes (R43); this order is the model's (log entry 20). -/
def wordOfBytes (b0 b1 b2 b3 : Byte) : Word := b3 ++ b2 ++ b1 ++ b0

/-- The decoder on bytes: the descriptor of the first four and what follows them. -/
def decodeBytes : List Byte → Except DecodeError (Instr × List Byte)
  | b0 :: b1 :: b2 :: b3 :: rest => .ok (decodeWord (wordOfBytes b0 b1 b2 b3), rest)
  | short => .error (.truncated short.length)

/-! ## The encoder -/

/-- The operand fields of a descriptor (R66, R73). -/
def Instr.cnt : Instr → BitVec 22
  | .lo cnt _ _ => cnt
  | .hi cnt _ _ => cnt
  | .l100 => 15500#22
  | .l200 => 31000#22
  | .h100 => 15500#22
  | .hs => 1120#22
  | .pmp _ => 240#22
  | .pmn _ => 240#22

/-- The `off` field of a descriptor's word. -/
def Instr.off : Instr → BitVec 8
  | .lo _ off _ => off
  | .hi _ off _ => off
  | .l100 => 0#8
  | .l200 => 0#8
  | .h100 => 0#8
  | .hs => 0#8
  | .pmp off => off
  | .pmn off => off

/-- The `pol` field of a descriptor's word. -/
def Instr.pol : Instr → Bool
  | .lo _ _ pol => pol
  | .hi _ _ pol => pol
  | .l100 => false
  | .l200 => false
  | .h100 => false
  | .hs => false
  | .pmp _ => false
  | .pmn _ => true

/-- The `amp` field of a descriptor's word: its opcode (R67). -/
def Instr.amp : Instr → Bool
  | .lo _ _ _ => false
  | .hi _ _ _ => true
  | .l100 => false
  | .l200 => false
  | .h100 => true
  | .hs => true
  | .pmp _ => true
  | .pmn _ => true

/-- The word with these fields: `cccccccccccccccccccccc oooooooo p a` (R66). -/
def packFields (cnt : BitVec 22) (off : BitVec 8) (pol amp : Bool) : Word :=
  cnt ++ off ++ BitVec.ofBool pol ++ BitVec.ofBool amp

/-- The word of a descriptor. -/
def encode (i : Instr) : Word := packFields i.cnt i.off i.pol i.amp

/-- A pseudo-descriptor's expansion (R73); `lo` and `hi` stand for themselves. -/
def Instr.expand (i : Instr) : Instr :=
  if i.amp then .hi i.cnt i.off i.pol else .lo i.cnt i.off i.pol

/-- The four bytes of a word, bits 7:0 first (log entry 20). -/
def bytesOfWord (w : Word) : List Byte :=
  [w.extractLsb' 0 8, w.extractLsb' 8 8, w.extractLsb' 16 8, w.extractLsb' 24 8]

/-- The descriptor the decoder reads from an instruction whose bits are `w`, numbered as
spec/opcode_table.json numbers them; bits above `nbits` are 0. None where more bits are given than a
word has (R71). -/
def decodeTableWord (nbits w : Nat) : Option Instr :=
  if nbits ≤ 32 then
    match decodeBytes (bytesOfWord (BitVec.ofNat 32 (w % 2 ^ nbits))) with
    | .ok (i, _) => some i
    | .error _ => none
  else none

end Sys2Proof
end

