-- ==== Sys2Proof/Machine/Operands.lean ====
section
/-! DEFINITION. What a descriptor's operands mean to the sequencer: the phase displacement (R68) and the
half-cycle length (R150). Signed quantities are mathematical integers (R6). -/

namespace Sys2Proof.Machine

/-- `pins` values (R21): both low. -/
def pinsZ : BitVec 2 := 0b00#2
/-- `pins` values (R21): the first pin high. -/
def pinsP : BitVec 2 := 0b01#2
/-- `pins` values (R21): the second pin high. -/
def pinsN : BitVec 2 := 0b10#2

/-- The displacement `s` (R68): `+off` for positive, `-off` for negative phase. -/
def displacement (pol : Bool) (off : BitVec 8) : Int :=
  if pol then -(off.toNat : Int) else (off.toNat : Int)

/-- `Hn = CLR + 2`, the nominal half-cycle in ticks (R150, D6). -/
def nominalHalf (clr : BitVec 16) : Nat := clr.toNat + Config.halfOverhead

/-- `halfLen(first, last)` as the integer of R150. -/
def halfLenInt (clr : BitVec 16) (amp pol : Bool) (off : BitVec 8) (first last : Bool) : Int :=
  if amp then
    (nominalHalf clr : Int) - (if first then displacement pol off else 0)
      + (if last then displacement pol off else 0)
  else (nominalHalf clr : Int)

/-- `halfLen(first, last)` in the 17 bits of `Y` (R20). -/
def halfLen (clr : BitVec 16) (amp pol : Bool) (off : BitVec 8) (first last : Bool) : BitVec 17 :=
  BitVec.ofInt 17 (halfLenInt clr amp pol off first last)

/-- Whether R154 reserves the offset: `amp = 1`, `cnt ≥ 2` and `off ≥ CLR + 2`. -/
def offsetReserved (clr : BitVec 16) (amp : Bool) (cnt : BitVec 22) (off : BitVec 8) : Bool :=
  amp && decide (2 ≤ cnt.toNat) && decide (nominalHalf clr ≤ off.toNat)

end Sys2Proof.Machine
end

