-- ==== Sys2Proof/Machine/Sequencer.lean ====
section
/-! DEFINITION. The CarrierSequencer (43_carrier_sequencer.md): its commands, one tick of a half-cycle,
the dequeue of a descriptor, and `TICK` over a given execution of descriptors. -/

namespace Sys2Proof.Machine

/-! ## One tick of the half-cycle in progress (R149, second part) -/

/-- Whether a state is one of the four half states. -/
def isHalf : SeqState → Bool
  | .highHalf1 => true
  | .highHalf2 => true
  | .lowHalf1 => true
  | .lowHalf2 => true
  | .stopped => false
  | .setupDecode => false

/-- `otherHalf` (R149). -/
def otherHalf : SeqState → SeqState
  | .highHalf1 => .highHalf2
  | .highHalf2 => .highHalf1
  | .lowHalf1 => .lowHalf2
  | .lowHalf2 => .lowHalf1
  | .stopped => .stopped
  | .setupDecode => .setupDecode

/-- The level a half state drives (R149); outside the half states the pins hold. -/
def pinLevel (s : State) : BitVec 2 :=
  match s.st with
  | .highHalf1 => pinsP
  | .highHalf2 => pinsN
  | .lowHalf1 => if s.e.toNat < s.par.lowDriveTicks then pinsP else pinsZ
  | .lowHalf2 => if s.e.toNat < s.par.lowDriveTicks then pinsN else pinsZ
  | .stopped => s.pins
  | .setupDecode => s.pins

/-- This tick ends the half-cycle: `Y` reaches 0 (R148). -/
def endsHalf (s : State) : Bool := s.y - 1#17 == 0#17

/-- This tick ends the descriptor: the half-cycle ends and `X` reaches 0 (R148). -/
def endsDescriptor (s : State) : Bool := endsHalf s && s.x - 1#22 == 0#22

/-- The next state of one tick of a half-cycle: the statements of R149 after the dequeue. -/
def halfTick (s : State) : State :=
  { s with
    pins := pinLevel s
    st := if endsDescriptor s then .setupDecode else if endsHalf s then otherHalf s.st else s.st
    x := if endsHalf s then s.x - 1#22 else s.x
    y := if endsDescriptor s then 0#17
         else if endsHalf s then halfLen s.clr s.amp s.pol s.off false (s.x - 1#22 == 1#22)
         else s.y - 1#17
    e := if endsHalf s && !endsDescriptor s then 0#17 else s.e + 1#17 }

/-! ## The dequeue of a descriptor (R149, first part) -/

/-- The fields latched and the first half-cycle loaded (R149). -/
def latch (amp pol : Bool) (off : BitVec 8) (cnt : BitVec 22) (s : State) : State :=
  { s with
    amp := amp
    pol := pol
    off := off
    x := cnt
    st := if amp then .highHalf1 else .lowHalf1
    y := halfLen s.clr amp pol off true (cnt == 1#22)
    e := 0#17 }

/-- The tick that dequeues a descriptor with these fields (R149, R154): reserved values are refused, else
the fields are latched and the same tick is the first tick of the first half-cycle. `s` is the state after
`fifo.pop()`. -/
def beginDescriptor (amp pol : Bool) (off : BitVec 8) (cnt : BitVec 22) (s : State) : Result :=
  if cnt = 0#22 then .refused .reservedCount
  else if offsetReserved s.clr amp cnt off then .refused .reservedOffset
  else .next (halfTick (latch amp pol off cnt s))

/-! ## TICK (R149) -/

/-- `TICK`, over `run`, the execution of a dequeued descriptor. The nothing a stopped sequencer does
(R148) and the stall tick (R153) leave the state as it is. -/
def tickWith (run : Instr → State → Result) (s : State) : Result :=
  match s.st with
  | .stopped => .next s
  | .setupDecode =>
    match s.fifo with
    | [] => .next s
    | w :: _ => run (decodeWord w) (fifoPop s)
  | .highHalf1 => .next (halfTick s)
  | .highHalf2 => .next (halfTick s)
  | .lowHalf1 => .next (halfTick s)
  | .lowHalf2 => .next (halfTick s)

/-! ## Commands -/

/-- What `PUSH` does to a FIFO that is not full (R143). The first push after `START` sets `pushedAny` (R29),
whether or not a `STOP` came between; one before any `START` leaves it (log entry 17). -/
def pushWord (w : Word) (s : State) : State := { fifoPush w s with pushedAny := s.pushedAny || s.wasStarted }

/-- `PUSH(w)` (R143): with a full FIFO the command has no step (log entry 3). -/
def doPush (w : Word) (s : State) : Result := .next (if isFull s then s else pushWord w s)

/-- `PRELOAD(v)` (R144): refused while the sequencer runs. -/
def doPreload (v : BitVec 16) (s : State) : Result :=
  if isRunning s then .refused .preloadWhileRunning
  else .next { s with clr := v, clrValid := true }

/-- What a permitted `START` does (R145): nothing while the sequencer runs. -/
def startSequencer (s : State) : State :=
  if isRunning s then s else { s with st := .setupDecode, pushedAny := false, wasStarted := true }

/-- `START` (R145). -/
def doStart (s : State) : Result :=
  if s.clrValid then .next (startSequencer s) else .refused .startBeforePreload

/-- `STOP` (R146): the working registers take free values (U9; log entry 8). -/
def doStop (s : State) : Result :=
  .next { fifoClear s with
    st := .stopped
    pins := pinsZ
    amp := Config.freeAmp s.free
    pol := Config.freePol s.free
    off := Config.freeOff s.free
    x := Config.freeX s.free
    y := Config.freeY s.free
    e := Config.freeE s.free
    free := s.free + 1 }

/-- `STATUS` (R142): reads `status` and writes nothing. -/
def doStatus (s : State) : Result := .next s

end Sys2Proof.Machine
end

