-- ==== Sys2Proof/Machine/Table.lean ====
section
/-! DEFINITION. The WaveformDescriptorTable (42_descriptor_table.md): its contents, `TAB.BUILD`,
`PM_SELECT` and `LOOKUP`. -/

namespace Sys2Proof.Machine

/-- The phase-modulation descriptor of a chip (R125): `PMP` for chip 0, `PMN` for chip 1, each with
`off = DELTA`. -/
def chipWord (p : Params) (chip : Bool) : Word :=
  encode (if chip then .pmn (BitVec.ofNat 8 p.phaseTicks) else .pmp (BitVec.ofNat 8 p.phaseTicks))

/-- The 1028 words of R121 to R126, in the index order of R41, for the state's parameters and pattern. -/
def tableWords (s : State) : List Word :=
  [encode .l100, encode .l200, encode .h100, encode .hs]
    ++ (List.range Config.chipCount).map (fun k => chipWord s.par (patAt s k))
    ++ (List.range Config.chipCount).map (fun k => chipWord s.par (invAt s k))

/-- `TAB.BUILD` (R127): refused before `patDone`; it runs once, so a valid table stays (log entry 16). -/
def doTabBuild (s : State) : Result :=
  if s.tabValid then .next s
  else if patDone s then .next { s with tab := tableWords s, tabValid := true }
  else .refused .tableBeforePattern

/-- `PM_SELECT(sym, i)` (R129): `true` is `INV`. -/
def pmSelect (p : Params) (sym : Symbol) (i : Nat) : Bool :=
  match sym with
  | .zero => p.pmZero.getLsbD i
  | .one => p.pmOne.getLsbD i
  | .minuteMark => p.pmMark.getLsbD i
  | .reserved3 => false

/-- The 512 phase-modulation words of a second, read from the table (R128). -/
def pmWords (s : State) (inv : Bool) : List Word :=
  (List.range Config.chipCount).map (fun k => tabAt s ((if inv then 516 else 4) + k))

/-- The words a symbol's second begins with (R128). -/
def amplitudeWords (s : State) (sym : Symbol) : List Word :=
  match sym with
  | .zero => [tabAt s 0, tabAt s 2]
  | .one => [tabAt s 1]
  | .minuteMark => [tabAt s 2, tabAt s 2]
  | .reserved3 => []

/-- The words of a second (R128), where `LOOKUP` is not refused. -/
def secondWords (s : State) (sym : Symbol) (i : Nat) : List Word :=
  amplitudeWords s sym ++ pmWords s (pmSelect s.par sym i) ++ [tabAt s 3]

/-- `LOOKUP(sym, i)` (R128). -/
def lookup (s : State) (sym : Symbol) (i : Nat) : Except Refusal (List Word) :=
  if !s.tabValid then .error .lookupBeforeTable
  else if Config.vectorLen ≤ i then .error .indexOutOfRange
  else if sym = .reserved3 then .error .reservedSymbol
  else .ok (secondWords s sym i)

end Sys2Proof.Machine
end

