-- ==== Sys2Proof/Machine/Scheduler.lean ====
section
/-! DEFINITION. The MinuteScheduler (44_minute_scheduler.md) and boot priming (R233). A step that is not
enabled leaves the state as it is (log entry 3). -/

namespace Sys2Proof.Machine

/-! ## The streaming context -/

/-- `ACTIVATE` is enabled (R171). -/
def activateEnabled (s : State) : Bool :=
  s.ms == .idle && (slotAt s s.active).isSome && s.tabValid && s.clrValid && s.edge

/-- `ACTIVATE` (R171), `second` being the answer of `TS.now().second`; outside 0 to 59 it is refused
(R236; log entry 26). The step uses up the second edge (log entry 14). -/
def doActivate (second : Nat) (s : State) : Result :=
  if activateEnabled s then
    if Config.vectorLen ≤ second then .refused .indexOutOfRange
    else .next { startSequencer { s with startOffset := second, i := second, q := 0, edge := false } with
      ms := .streamingCurrent }
  else .next s

/-- `PUSHNEXT` is enabled (R172). -/
def pushNextEnabled (s : State) : Bool := s.ms == .streamingCurrent && !isFull s

/-- The sample of `empty` before a push (R172, R180). -/
def sampleEmpty (s : State) : State :=
  if s.pushedAny && isEmpty s then raiseError .queueUnderrun (.indices s.i s.q) s else s

/-- The indices after a push, `len` being the length of the second's sequence (R172). -/
def advanceIndices (len : Nat) (s : State) : State :=
  if s.q + 1 = len then
    if s.i = 59 then { s with q := 0, ms := .swapping } else { s with q := 0, i := s.i + 1 }
  else { s with q := s.q + 1 }

/-- The descriptor sequence of the second being streamed: `LOOKUP(slot[active][i], i)` (R172). -/
def currentSecond (s : State) : Except Refusal (List Word) :=
  match slotAt s s.active with
  | none => .error .slotEmpty
  | some v =>
    match v[s.i]? with
    | none => .error .indexOutOfRange
    | some sym => lookup s sym s.i

/-- The third line of `PUSHNEXT` (R172): `PUSH(seq[q]) ; pushedAny <- 1`. -/
def streamWord (w : Word) (s : State) : State := { fifoPush w s with pushedAny := true }

/-- `PUSHNEXT` (R172). -/
def doPushNext (s : State) : Result :=
  if pushNextEnabled s then
    match currentSecond s with
    | .error r => .refused r
    | .ok seq =>
      match seq[s.q]? with
      | none => .refused .indexOutOfRange
      | some w => .next (advanceIndices seq.length (streamWord w (sampleEmpty s)))
  else .next s

/-- The last four statements of `SWAP` (R174): the next minute begins. -/
def nextMinute (s : State) : State :=
  { s with minuteGen := s.minuteGen + 1, bg := .bgNone, firstMinute := false, i := 0, q := 0,
           ms := .streamingCurrent }

/-- `active <- 1 - active`. -/
def flipActive (s : State) : State := { s with active := !s.active }

/-- The overrun outcome of `SWAP` (R174, R203). -/
def swapOverrun (s : State) : Result :=
  if (slotAt s (!s.active)).isNone then .refused .inactiveSlotNeverWritten
  else .next (nextMinute (flipActive (raiseError .scheduleOverrun (.generation s.minuteGen) s)))

/-- `SWAP` (R174), enabled when `ms = Swapping`. -/
def doSwap (s : State) : Result :=
  if s.ms = .swapping then
    match s.bg with
    | .bgOk => .next (nextMinute (flipActive s))
    | .bgInvalid => .next (nextMinute s)
    | .bgRunning => swapOverrun s
    | .bgNone => swapOverrun s
  else .next s

/-! ## The background context -/

/-- `freeRun((t0, d0, g0), g)` (R181). -/
def freeRun (b : TimeBase) (g : Nat) : TimeTuple × Bool :=
  Config.advance b.tuple b.summer (60 * (g - b.gen))

/-- `BG.START` is enabled (R175), with an answer to the request this feeder makes (R176; log entry 12). -/
def bgStartEnabled (r : TsAnswer) (s : State) : Bool :=
  s.ms == .streamingCurrent && s.bg == .bgNone && r.asked == s.par.lookahead

/-- The last statement of `BG.START` (R175): the task is started. -/
def startTask (t : TimeTuple) (d : Bool) (s : State) : State :=
  { s with tasks := s.tasks ++ [⟨t, d, !s.active, s.minuteGen⟩], bg := .bgRunning }

/-- `timeBase <- (t, d, g)` (R175, R233). -/
def setTimeBase (t : TimeTuple) (d : Bool) (g : Nat) (s : State) : State :=
  { s with timeBase := some ⟨t, d, g⟩ }

/-- `BG.START` (R175, R181). -/
def doBgStart (r : TsAnswer) (s : State) : Result :=
  if bgStartEnabled r s then
    match r.reading with
    | some (t, d) => .next (startTask t d (setTimeBase t d s.minuteGen s))
    | none =>
      match s.timeBase with
      | none => .refused .noTimeBase
      | some b =>
        .next (startTask (freeRun b s.minuteGen).1 (freeRun b s.minuteGen).2
          (raiseError .timeSourceUnavailable .nothing s))
  else .next s

/-- The guarded block of `BG.FINISH` (R177): a late result is dropped (R179), an error marks the minute
(R182), a vector is moved in whole (R178). -/
def moveIn (k : Task) (v : Except Fault TimecodeVector) (s : State) : State :=
  if k.gen ≠ s.minuteGen then s
  else
    match v with
    | .error _ => { s with bg := .bgInvalid }
    | .ok vec => { setSlot k.target vec s with bg := .bgOk }

/-- The report of an `ENC` that raised (R201, R209): made whether or not the result is late (R179). -/
def reportEnc (t : TimeTuple) (v : Except Fault TimecodeVector) (s : State) : State :=
  match v with
  | .error k => raiseError k (.tuple t) s
  | .ok _ => s

/-- `BG.FINISH` (R177) of the task at place `k` of `tasks`; with no task there it is not enabled. -/
def doBgFinish (k : Nat) (s : State) : Result :=
  match s.tasks[k]? with
  | none => .next s
  | some task =>
    .next (moveIn task (enc s.par.yearMax task.tuple task.summer)
      (reportEnc task.tuple (enc s.par.yearMax task.tuple task.summer) { s with tasks := s.tasks.eraseIdx k }))

/-! ## Boot -/

/-- `PRIME` is enabled: step 4 of the boot order, taken once (R232; log entry 15). -/
def primeEnabled (r : TsAnswer) (s : State) : Bool :=
  s.ms == .idle && !s.primed && r.asked == s.par.lookahead

/-- `slot[active] <- v` if `v` is a vector (R233). -/
def primeSlot (v : Except Fault TimecodeVector) (s : State) : State :=
  match v with
  | .error _ => s
  | .ok vec => setSlot s.active vec s

/-- `PRIME` (R233). -/
def doPrime (r : TsAnswer) (s : State) : Result :=
  if primeEnabled r s then
    match r.reading with
    | none => .refused .noTimeBase
    | some (t, d) =>
      .next (primeSlot (enc s.par.yearMax t d)
        (reportEnc t (enc s.par.yearMax t d) { setTimeBase t d 0 s with primed := true }))
  else .next s

/-- `alignToSecondEdge` returns (R232 step 5). -/
def doEdge (s : State) : Result := .next { s with edge := true }

/-- The dump of a slot's vector (R220, R74). The spec's dump reads a vector and says nothing of a slot that
holds none: here there is then no dump (DESIGN CHOICE, log entry 3). -/
def dumpSlot (s : State) (b : Bool) : Option (List Char) := (slotAt s b).map dumpVector

/-- The dump as a move: it reads `dumpSlot` and has no effect on any state (R220), whether or not the slot
holds a vector (log entry 3). -/
def doDump (_b : Bool) (s : State) : Result := .next s

end Sys2Proof.Machine
end

