-- ==== Sys2Proof/Machine/Agents.lean ====
section
/-! DEFINITION. The moves of the agents (R10, R190), the step of the machine over a given execution of
descriptors, and `BOOT` (R232). -/

namespace Sys2Proof.Machine

/-- One move of one agent (R47: atomic). -/
def act (run : Instr → State → Result) (a : Action) (s : State) : Result :=
  match a with
  | .tick => tickWith run s
  | .lfsrStep => doLfsrStep s
  | .lfsrGen => doLfsrGen s
  | .tabBuild => doTabBuild s
  | .preload v => doPreload v s
  | .prime r => doPrime r s
  | .edge => doEdge s
  | .activate second => doActivate second s
  | .pushNext => doPushNext s
  | .swap => doSwap s
  | .bgStart r => doBgStart r s
  | .bgFinish k => doBgFinish k s
  | .push w => doPush w s
  | .start => doStart s
  | .stop => doStop s
  | .status => doStatus s
  | .dump b => doDump b s

/-- The move to be made now: the agenda's first, or the clock's tick (log entry 2). -/
def nextMove (s : State) : Action := s.agenda.headD .tick

/-- The state the move is made in: its place in the agenda is used up. -/
def dropMove (s : State) : State := { s with agenda := s.agenda.tail }

/-- The step: one move of one agent, unless the parameters are outside R5 (log entry 28). -/
def stepWith (run : Instr → State → Result) (s : State) : Result :=
  if s.par.valid then act run (nextMove s) (dropMove s) else .refused .parametersOutOfRange

/-- `BOOT` in the order R232 lists it, given the time source's answer to priming and the second after the edge. -/
def bootMoves (p : Params) (r : TsAnswer) (second : Nat) : List Action :=
  [.lfsrGen, .tabBuild, .preload p.clrPreload, .prime r, .edge, .activate second]

/-- A word put where the sequencer dequeues next, in a started sequencer, with the clock's tick as the
next move (log entry 22). -/
def placeWord (w : Word) (s : State) : State :=
  { s with
    st := .setupDecode
    wasStarted := true
    clr := if s.clrValid then s.clr else s.par.clrPreload
    clrValid := true
    fifo := w :: s.fifo.tail
    agenda := .tick :: s.agenda }

end Sys2Proof.Machine
end

