-- ==== Sys2Proof/Machine/High.lean ====
section
/-! DEFINITION. The meanings of the high-amplitude descriptors: the tick that dequeues one (R149, R152).
The ticks after it are `halfTick`. -/

namespace Sys2Proof.Machine

/-- `HI cnt`, `HI cnt, +off`, `HI cnt, -off` (R152). -/
def execHi (cnt : BitVec 22) (off : BitVec 8) (pol : Bool) (s : State) : Result :=
  beginDescriptor true pol off cnt s

/-- `H100` = `HI 15500` (R123). -/
def execH100 (s : State) : Result := beginDescriptor true false 0#8 Config.hc100ms s

/-- `HS` = `HI 1120` (R124). -/
def execHs (s : State) : Result := beginDescriptor true false 0#8 Config.hcFiller s

/-- `PMP` = `HI 240, +off` (R125). -/
def execPmp (off : BitVec 8) (s : State) : Result := beginDescriptor true false off Config.hcChip s

/-- `PMN` = `HI 240, -off` (R125). -/
def execPmn (off : BitVec 8) (s : State) : Result := beginDescriptor true true off Config.hcChip s

end Sys2Proof.Machine
end

