-- ==== Sys2Proof/Machine/Low.lean ====
section
/-! DEFINITION. The meanings of the low-amplitude descriptors: the tick that dequeues one (R149, R151).
The ticks after it are `halfTick`. -/

namespace Sys2Proof.Machine

/-- `LO cnt` (R151): `pol` and `off` are latched (R149; log entry 18) and have no effect (R68, R70). -/
def execLo (cnt : BitVec 22) (off : BitVec 8) (pol : Bool) (s : State) : Result :=
  beginDescriptor false pol off cnt s

/-- `L100` = `LO 15500` (R121). -/
def execL100 (s : State) : Result := beginDescriptor false false 0#8 Config.hc100ms s

/-- `L200` = `LO 31000` (R122). -/
def execL200 (s : State) : Result := beginDescriptor false false 0#8 Config.hc200ms s

end Sys2Proof.Machine
end

