-- ==== Sys2Proof/Machine/Dispatch.lean ====
section
/-! DEFINITION. The execution of a dequeued descriptor: one arm per row of spec/opcode_table.json. -/

namespace Sys2Proof.Machine

def exec (i : Instr) (s : State) : Host.Outcome State Fault Refusal :=
  match i with
  | .lo cnt off pol => Sys2Proof.Machine.execLo cnt off pol s
  | .hi cnt off pol => Sys2Proof.Machine.execHi cnt off pol s
  | .l100 => Sys2Proof.Machine.execL100 s
  | .l200 => Sys2Proof.Machine.execL200 s
  | .h100 => Sys2Proof.Machine.execH100 s
  | .hs => Sys2Proof.Machine.execHs s
  | .pmp off => Sys2Proof.Machine.execPmp off s
  | .pmn off => Sys2Proof.Machine.execPmn off s

end Sys2Proof.Machine
end

