-- ==== Sys2Proof/Machine/Step.lean ====
section
/-! DEFINITION. The step of the machine. -/

namespace Sys2Proof.Machine

/-- `TICK` (R149). -/
def tick (s : State) : Host.Outcome State Fault Refusal := tickWith exec s

/-- One step: the next move of an agent (R8, R47). -/
def step (s : State) : Host.Outcome State Fault Refusal := stepWith exec s

/-- `s` with the instruction of these bits, numbered as spec/opcode_table.json numbers them, where the
next step dequeues and executes it (log entry 22). -/
def State.withFetchWord (s : State) (nbits w : Nat) : State :=
  placeWord (BitVec.ofNat 32 (w % 2 ^ nbits)) s

end Sys2Proof.Machine
end

