-- ==== Sys2Proof/Safety.lean ====
section
/-! DEFINITION. The terms the claims use: whose move is next, runs with their pin and word traces (R235), the
segment list of a descriptor (R151, R152, R156), the word stream of a minute (R184), and the invariants of the
three parts of the state. -/

namespace Sys2Proof.Machine

/-! ## Moves -/

/-- The parameters meet R5 and the next move is `a`. -/
abbrev Moves (a : Action) (s : State) : Prop := s.par.valid = true ∧ nextMove s = a

/-- The sequencer is in `SetupDecode`, the clock is next, and `w` is the word it will dequeue. -/
abbrev Dequeues (w : Word) (rest : List Word) (s : State) : Prop :=
  Moves .tick s ∧ s.st = .setupDecode ∧ s.fifo = w :: rest

/-! ## Runs, and what a claim may observe of one (R235) -/

/-- Moves that an agent outside the boot sequence may make at any step of it: the clock's, `EXT`'s, and the two
reads (R236, R142, R220). -/
def admittedInBoot : Action → Bool
  | .tick => true
  | .stop => true
  | .status => true
  | .dump _ => true
  | _ => false

/-- An order of the boot moves that R232 allows, `gen` being the moves of step 1: `TAB.BUILD` comes after them,
`PRELOAD` and `PRIME` may be exchanged with each other and with these, and the edge and `ACTIVATE` come last. -/
def BootOrder (gen : List Action) (p : Params) (r : TsAnswer) (second : Nat) (boot : List Action) : Prop :=
  ∃ setup, setup.Perm (gen ++ [.tabBuild, .preload p.clrPreload, .prime r])
    ∧ (gen ++ [Action.tabBuild]).Sublist setup ∧ boot = setup ++ [.edge, .activate second]

/-- Step 1 of `BOOT`: `LFSR.GEN`, or its 512 steps one by one (R112). -/
def generates (gen : List Action) : Prop := gen = [.lfsrGen] ∨ gen = List.replicate 512 .lfsrStep

/-- The moves go through `BOOT` (R232): but for the moves admitted at any step, they begin with the boot moves in
one of the orders R232 allows. -/
def ThroughBoot (p : Params) (moves : Nat → Action) : Prop :=
  ∃ gen r second boot, generates gen ∧ r.asked = p.lookahead ∧ BootOrder gen p r second boot ∧ ∀ m,
    ((List.range m).map moves).filter (fun a => !admittedInBoot a) <+: boot
    ∨ boot <+: ((List.range m).map moves).filter (fun a => !admittedInBoot a)

/-- One move of one agent, from a state whose own agenda is set aside. -/
def stepBy (a : Action) (s : State) : Result := step { s with agenda := [a] }

/-- The first steps of `moves` lead through these states: `n` steps if `len` is `some n`, steps without an end
if it is `none`. -/
def RunsThrough (len : Option Nat) (moves : Nat → Action) (states : Nat → State) : Prop :=
  ∀ k, (∀ n, len = some n → k < n) → stepBy (moves k) (states k) = .next (states (k + 1))

/-- A run (R235): a sequence of steps, finite or not, of the agents from the reset state through `BOOT`.
(`isRun_prefix` says that each of its prefixes is a run of `step` with those moves as the agenda.) -/
structure IsRun (p : Params) (len : Option Nat) (moves : Nat → Action) (states : Nat → State) : Prop where
  start : states 0 = { State.reset with par := p }
  boot : ThroughBoot p moves
  steps : RunsThrough len moves states

/-- The next step is a tick that dequeues a word (R149). -/
def dequeuesNow (s : State) : Bool := nextMove s == .tick && s.st == .setupDecode && !isEmpty s

/-- The pin trace over the next `k` steps, `begun` saying whether a word has been dequeued before: `pins` on
every `TICK` from the first dequeue on, and on no other agent's move. -/
def pinTraceFrom : Bool → Nat → State → List (BitVec 2)
  | _, 0, _ => []
  | begun, k + 1, s =>
    match step s with
    | .next t =>
      (if nextMove s = .tick ∧ (begun || dequeuesNow s) = true then [t.pins] else [])
        ++ pinTraceFrom (begun || dequeuesNow s) k t
    | .fault _ => []
    | .refused _ => []

/-- The pin trace of the next `k` steps (R235 a): the value of `pins` on every `TICK` from the first dequeue. -/
def pinTrace (k : Nat) (s : State) : List (BitVec 2) := pinTraceFrom false k s

/-- The words a step from `s` to `t` pushed: what stands in the FIFO of `t` behind the words of `s`. -/
def pushedIn (s t : State) : List Word := t.fifo.drop s.fifo.length

/-- The word trace of the next `k` steps (R235 b): the words pushed, in order. -/
def wordTrace : Nat → State → List Word
  | 0, _ => []
  | k + 1, s =>
    match step s with
    | .next t => pushedIn s t ++ wordTrace k t
    | .fault _ => []
    | .refused _ => []

/-! ## Waveforms -/

/-- The side a half-cycle drives (R151, R152): `P` for even `j`, `N` for odd. -/
def sideLevel (j : Nat) : BitVec 2 := if j % 2 = 0 then pinsP else pinsN

/-- `len_j` (R150 to R152). -/
def segmentLen (clr : BitVec 16) (i : Instr) (j : Nat) : Nat :=
  (halfLenInt clr i.amp i.pol i.off (j == 0) (j + 1 == i.cnt.toNat)).toNat

/-- The pin levels of half-cycle `j` of a descriptor, one per tick (R151, R152). -/
def halfLevels (p : Params) (clr : BitVec 16) (i : Instr) (j : Nat) : List (BitVec 2) :=
  if i.amp then List.replicate (segmentLen clr i j) (sideLevel j)
  else List.replicate (min p.lowDriveTicks (nominalHalf clr)) (sideLevel j)
    ++ List.replicate (nominalHalf clr - min p.lowDriveTicks (nominalHalf clr)) pinsZ

/-- The pin levels of a whole descriptor (R151, R152). -/
def descriptorLevels (p : Params) (clr : BitVec 16) (i : Instr) : List (BitVec 2) :=
  (List.range i.cnt.toNat).flatMap (halfLevels p clr i)

/-- The sequencer accepts the descriptor (R154). -/
abbrev Accepted (clr : BitVec 16) (i : Instr) : Prop :=
  i.cnt ≠ 0#22 ∧ offsetReserved clr i.amp i.cnt i.off = false

/-- The ticks a descriptor lasts (R151, R152). -/
def durationTicks (clr : BitVec 16) (i : Instr) : Nat := i.cnt.toNat * nominalHalf clr

/-! ## The chip generator -/

/-- The register after `k` steps from the seed (R110, R111). -/
def lfsrAt : Nat → BitVec 9
  | 0 => 0#9
  | k + 1 => lfsrNext (lfsrAt k)

/-- The 512 chips of 95_test_vectors.md section 3.1, chip `k` at bit `k`. -/
def specPattern : BitVec 512 :=
  0x804464756c712a367cf16e52099d1f783fe1ee166de8730915d792e703ba7a940aafad06edac177c79a6b8d17f4b14c60332b27ed24df96a144ecbd86a9c8620#512

/-! ## Streams -/

/-- The half-cycles a list of words lasts. -/
def totalCount (ws : List Word) : Nat := (ws.map (fun w => (cntOf w).toNat)).sum

/-- The length of a symbol's second (R128). -/
def secondLen (sym : Symbol) : Nat :=
  match sym with
  | .zero => 515
  | .one => 514
  | .minuteMark => 515
  | .reserved3 => 513

/-- The words of second `j` of a vector, none past its end. -/
def wordsOfSecond (s : State) (v : TimecodeVector) (j : Nat) : List Word :=
  match v[j]? with
  | some sym => secondWords s sym j
  | none => []

/-- The words of the current minute still to be pushed (R172, R184). -/
def minuteRest (s : State) : List Word :=
  match s.ms, slotAt s s.active with
  | .streamingCurrent, some v =>
    (wordsOfSecond s v s.i).drop s.q ++ ((List.range 60).drop (s.i + 1)).flatMap (wordsOfSecond s v)
  | _, _ => []

/-! ## Invariants -/

/-- The high path's half states. -/
def isHigh : SeqState → Bool
  | .highHalf1 => true
  | .highHalf2 => true
  | .lowHalf1 => false
  | .lowHalf2 => false
  | .stopped => false
  | .setupDecode => false

/-- What holds of the CarrierSequencer's state (R16 to R22, R148, R157). -/
structure SequencerInv (s : State) : Prop where
  /-- The pins are never both driven (R157). -/
  pins_legal : s.pins = pinsZ ∨ s.pins = pinsP ∨ s.pins = pinsN
  /-- A stopped sequencer drives neither pin (R157). -/
  stopped_pins : s.st = .stopped → s.pins = pinsZ
  /-- A sequencer that runs was preloaded (R145). -/
  preloaded : s.st ≠ .stopped → s.clrValid = true
  /-- A sequencer that runs was started (R145). -/
  started : s.st ≠ .stopped → s.wasStarted = true
  /-- The FIFO holds at most `FIFO_DEPTH` words (R22). -/
  fifo_depth : s.fifo.length ≤ s.par.fifoDepth
  /-- In a half state a half-cycle is in progress (R19). -/
  count_pos : isHalf s.st = true → s.x ≠ 0#22
  /-- In a half state a tick is left (R20). -/
  ticks_pos : isHalf s.st = true → s.y ≠ 0#17
  /-- The path is the descriptor's amplitude (R148). -/
  path : isHalf s.st = true → s.amp = isHigh s.st
  /-- The last half-cycle still to come has a positive length (R154). -/
  last_pos : isHalf s.st = true → s.amp = true → 2 ≤ s.x.toNat → s.off.toNat < nominalHalf s.clr

/-- What holds of the chip generator and the descriptor table (R12 to R15, R53, R112). -/
structure StoreInv (s : State) : Prop where
  /-- At most 512 chips (R13). -/
  chips_bound : s.n ≤ 512
  /-- The register is where `n` steps from the seed lead (R111). -/
  register : s.lfsr = lfsrAt s.n
  /-- The chips emitted so far are the generator's (R112). -/
  chips : ∀ k, k < s.n → patAt s k = chipOf (lfsrAt k)
  /-- The table has 1028 entries (R15). -/
  table_size : s.tab.length = 1028
  /-- A valid table was built from the complete pattern and holds what R121 to R126 say. -/
  table : s.tabValid = true → s.n = 512 ∧ s.tab = tableWords s

/-- A vector that some one `ENC` call returned (R50, R183). -/
def EncVector (yearMax : Nat) (v : TimecodeVector) : Prop := ∃ t d, enc yearMax t d = .ok v

/-- What holds of the MinuteScheduler's state (R24 to R31, R48 to R51, R178, R183). -/
structure FeederInv (s : State) : Prop where
  /-- A slot holds nothing or one complete `ENC` result (R25, R50). -/
  slots : ∀ b v, slotAt s b = some v → EncVector s.par.yearMax v
  /-- While streaming, the active slot is written (R171). -/
  active_written : s.ms ≠ .idle → (slotAt s s.active).isSome = true
  /-- A written active slot was primed from a reading of the time source (R233). -/
  based : (slotAt s s.active).isSome = true → s.timeBase.isSome = true
  /-- While streaming, the table is valid (R171). -/
  table_built : s.ms ≠ .idle → s.tabValid = true
  /-- The second index is in range (R27). -/
  second_bound : s.i ≤ 59
  /-- While streaming, `q` names a word of the current second (R27). -/
  word_bound : s.ms = .streamingCurrent →
    ∃ v sym, slotAt s s.active = some v ∧ v[s.i]? = some sym ∧ s.q < secondLen sym
  /-- At the swap, second 59 has been pushed whole (R172). -/
  swapping : s.ms = .swapping → s.i = 59 ∧ s.q = 0
  /-- Before activation no background work has begun (R175). -/
  idle : s.ms = .idle → s.tasks = [] ∧ s.bg = .bgNone ∧ s.minuteGen = 0
  /-- No task is of a minute to come. -/
  task_gen : ∀ k ∈ s.tasks, k.gen ≤ s.minuteGen
  /-- This minute's task targets the inactive slot (R178). -/
  task_target : ∀ k ∈ s.tasks, k.gen = s.minuteGen → k.target = !s.active
  /-- There is one task of this minute while `bg` says running, none otherwise (R28). -/
  task_count : (s.tasks.filter (fun k => k.gen == s.minuteGen)).length
    = if s.bg = .bgRunning then 1 else 0
  /-- A finished build has been moved in (R177). -/
  moved_in : s.bg = .bgOk → (slotAt s (!s.active)).isSome = true
  /-- The time base is not from a minute to come (R181). -/
  base_gen : ∀ b, s.timeBase = some b → b.gen ≤ s.minuteGen
  /-- The start second is in range (R27). -/
  offset_bound : s.startOffset ≤ 59
  /-- Each counter is the number of reports of its kind (R30, R209). -/
  counts : s.cntInputErr = s.reports.countP (fun r => r.kind == .protocolInputError)
    ∧ s.cntUnderrun = s.reports.countP (fun r => r.kind == .queueUnderrun)
    ∧ s.cntOverrun = s.reports.countP (fun r => r.kind == .scheduleOverrun)
    ∧ s.cntTimeSrc = s.reports.countP (fun r => r.kind == .timeSourceUnavailable)

end Sys2Proof.Machine
end

