-- ==== Sys2Proof/Certificates/Slice0/Obligations.lean ====
section
/-! DEFINITION. The statements for the provers. Each docstring names the rule of spec/ it formalises. -/

section
open Sys2Proof
open Machine

/-! ## Encoding (30_encoding.md) -/

/-- Every word of 95_test_vectors.md section 4.1, in its order, decodes to the descriptor it is listed for. That
a named word decodes to the pseudo-descriptor and not to `LO` or `HI` is the model's choice (log entry 19). -/
def Obligations.ListedWordsDecode : Prop :=
  decodeWord 0x00000800#32 = .lo 2#22 0#8 false ∧ decodeWord 0x00000400#32 = .lo 1#22 0#8 false
    ∧ decodeWord 0x00000401#32 = .hi 1#22 0#8 false ∧ decodeWord 0x00000801#32 = .hi 2#22 0#8 false
    ∧ decodeWord 0x00001005#32 = .hi 4#22 1#8 false ∧ decodeWord 0x00001007#32 = .hi 4#22 1#8 true
    ∧ decodeWord 0x0000040D#32 = .hi 1#22 3#8 false ∧ decodeWord 0x00000C0B#32 = .hi 3#22 2#8 true
    ∧ decodeWord 0x00000809#32 = .hi 2#22 2#8 false ∧ decodeWord 0x0000081D#32 = .hi 2#22 7#8 false
    ∧ decodeWord 0x0000081F#32 = .hi 2#22 7#8 true
    ∧ decodeWord 0x00F23000#32 = .l100 ∧ decodeWord 0x01E46000#32 = .l200
    ∧ decodeWord 0x00F23001#32 = .h100 ∧ decodeWord 0x00118001#32 = .hs
    ∧ decodeWord 0x0003C105#32 = .pmp 65#8 ∧ decodeWord 0x0003C107#32 = .pmn 65#8
    ∧ decodeWord 0x0003C005#32 = .pmp 1#8 ∧ decodeWord 0x0003C007#32 = .pmn 1#8
    ∧ decodeWord 0x0003C115#32 = .pmp 69#8
    ∧ decodeWord 0xFFFFFFFF#32 = .hi 4194303#22 255#8 true
    ∧ decodeWord 0x00000B22#32 = .lo 2#22 200#8 true ∧ decodeWord 0x00000803#32 = .hi 2#22 0#8 true
    ∧ decodeWord 0x00000000#32 = .lo 0#22 0#8 false ∧ decodeWord 0x00000001#32 = .hi 0#22 0#8 false
    ∧ decodeWord 0x000003FF#32 = .hi 0#22 255#8 true

/-- R66: the word value is `cnt * 1024 + off * 4 + pol * 2 + amp`, and reading the four fields of any word
at these places gives the word back. -/
def Obligations.WordValueFromFields : Prop :=
  (∀ i : Instr, (encode i).toNat
    = i.cnt.toNat * 1024 + i.off.toNat * 4 + i.pol.toNat * 2 + i.amp.toNat)
  ∧ (∀ w : Word, (cntOf w).toNat = w.toNat / 1024 ∧ (offOf w).toNat = w.toNat / 4 % 256
      ∧ (polOf w).toNat = w.toNat / 2 % 2 ∧ (ampOf w).toNat = w.toNat % 2)

/-- R67: the opcode is the `amp` bit alone, and every word decodes to exactly one of `LO` and `HI` (a
pseudo-descriptor being another name of one of them). -/
def Obligations.OpcodeIsAmpBit : Prop :=
  ∀ w : Word,
    (w &&& 1#32 = 0#32 → (decodeWord w).expand = .lo (cntOf w) (offOf w) (polOf w))
    ∧ (w &&& 1#32 = 1#32 → (decodeWord w).expand = .hi (cntOf w) (offOf w) (polOf w))

/-- Decoding the word, or the serial bytes, of a well-formed descriptor gives it back, with every operand at
every value. -/
def Obligations.DecodeInvertsEncode : Prop :=
  ∀ i : Instr, i.wf = true →
    decodeWord (encode i) = i
    ∧ ∀ rest : List Byte, decodeBytes (bytesOfWord (encode i) ++ rest) = .ok (i, rest)

/-- Every word decodes to a well-formed descriptor, and encoding that gives the word back, so no two words
have one meaning and no bit is dropped. Fewer than four bytes are rejected by name (log entry 20). -/
def Obligations.EncodeInvertsDecode : Prop :=
  (∀ w : Word, (decodeWord w).wf = true ∧ encode (decodeWord w) = w)
  ∧ (∀ bs : List Byte, bs.length < 4 → decodeBytes bs = .error (.truncated bs.length))

/-- R73: the pseudo-descriptors have the table's words, and each executes as its expansion does. -/
def Obligations.PseudoDescriptorsExpand : Prop :=
  encode .l100 = 0x00F23000#32 ∧ encode .l200 = 0x01E46000#32 ∧ encode .h100 = 0x00F23001#32
    ∧ encode .hs = 0x00118001#32
    ∧ (∀ d : BitVec 8, (encode (.pmp d)).toNat = 0x0003C001 + 4 * d.toNat
        ∧ (encode (.pmn d)).toNat = 0x0003C003 + 4 * d.toNat)
    ∧ Instr.expand .l100 = .lo 15500#22 0#8 false ∧ Instr.expand .l200 = .lo 31000#22 0#8 false
    ∧ Instr.expand .h100 = .hi 15500#22 0#8 false ∧ Instr.expand .hs = .hi 1120#22 0#8 false
    ∧ (∀ d : BitVec 8, Instr.expand (.pmp d) = .hi 240#22 d false
        ∧ Instr.expand (.pmn d) = .hi 240#22 d true)
    ∧ (∀ (i : Instr) (s : State), exec i.expand s = exec i s)

/-! ## The CarrierSequencer (43_carrier_sequencer.md) -/

/-- A step runs the decoded descriptor: in `SetupDecode` with a word at the head of the FIFO, the clock's
step is `exec` of what the word decodes to, the word popped and the move used up. The model's choices: that the
move is used up (log entry 1), that a named word has one well-formed term (log entry 19), and the last clause, that a word
placed by `withFetchWord`, the model's own way to load one, is run by the next step (log entry 22; `wasStarted` is set
with it, log entry 17). -/
def Obligations.StepRunsDecodedWord : Prop :=
  (∀ (s : State) (w : Word) (rest : List Word), Dequeues w rest s →
    step s = exec (decodeWord w) { dropMove s with fifo := rest })
  ∧ (∀ (s : State) (i : Instr) (rest : List Word), i.wf = true → Dequeues (encode i) rest s →
    step s = exec i { dropMove s with fifo := rest })
  ∧ (∀ (s : State) (i : Instr), i.wf = true → s.par.valid = true → s.clrValid = true →
    step (s.withFetchWord 32 (encode i).toNat)
      = exec i { s with st := .setupDecode, wasStarted := true, fifo := s.fifo.tail })

/-- R149, R151: where it is not reserved, the dequeue tick of `LO`, `L100` and `L200` latches the fields,
enters `LowHalf1` with `X = cnt`, drives `P` for its first tick and leaves `Hn - 1 = CLR + 1` ticks of the
half-cycle; nothing else changes. -/
def Obligations.LowDequeueTick : Prop :=
  ∀ s : State, s.par.valid = true →
    (∀ (cnt : BitVec 22) (off : BitVec 8) (pol : Bool), cnt ≠ 0#22 →
      exec (.lo cnt off pol) s = .next { s with
        amp := false, pol := pol, off := off, x := cnt, st := .lowHalf1,
        y := BitVec.ofNat 17 (s.clr.toNat + 1), e := 1#17, pins := 0b01#2 })
    ∧ exec .l100 s = .next { s with
        amp := false, pol := false, off := 0#8, x := 15500#22, st := .lowHalf1,
        y := BitVec.ofNat 17 (s.clr.toNat + 1), e := 1#17, pins := 0b01#2 }
    ∧ exec .l200 s = .next { s with
        amp := false, pol := false, off := 0#8, x := 31000#22, st := .lowHalf1,
        y := BitVec.ofNat 17 (s.clr.toNat + 1), e := 1#17, pins := 0b01#2 }

/-- R149, R150, R152: the dequeue tick of `HI` where its first half-cycle has more than one tick. The first
half-cycle has `Hn` ticks for `cnt = 1`, else `Hn - s`; one is used up. -/
def Obligations.HighDequeueTick : Prop :=
  ∀ (s : State) (cnt : BitVec 22) (off : BitVec 8),
    (cnt = 1#22 → ∀ pol : Bool,
      exec (.hi cnt off pol) s = .next { s with
        amp := true, pol := pol, off := off, x := cnt, st := .highHalf1,
        y := BitVec.ofNat 17 (s.clr.toNat + 1), e := 1#17, pins := 0b01#2 })
    ∧ (2 ≤ cnt.toNat → off.toNat < s.clr.toNat + 1 →
      exec (.hi cnt off false) s = .next { s with
        amp := true, pol := false, off := off, x := cnt, st := .highHalf1,
        y := BitVec.ofNat 17 (s.clr.toNat + 1 - off.toNat), e := 1#17, pins := 0b01#2 })
    ∧ (2 ≤ cnt.toNat → off.toNat < s.clr.toNat + 2 →
      exec (.hi cnt off true) s = .next { s with
        amp := true, pol := true, off := off, x := cnt, st := .highHalf1,
        y := BitVec.ofNat 17 (s.clr.toNat + 1 + off.toNat), e := 1#17, pins := 0b01#2 })
    ∧ (2 ≤ cnt.toNat → off.toNat = s.clr.toNat + 1 →
      exec (.hi cnt off false) s = .next { s with
        amp := true, pol := false, off := off, x := cnt - 1#22, st := .highHalf2,
        y := BitVec.ofNat 17 (s.clr.toNat + 2 + (if cnt = 2#22 then off.toNat else 0)), e := 0#17,
        pins := 0b01#2 })

/-- R123 to R125 with R149, R152: the dequeue tick of `H100`, `HS`, `PMP` and `PMN`. -/
def Obligations.HighPseudoDequeueTick : Prop :=
  ∀ s : State,
    exec .h100 s = .next { s with
      amp := true, pol := false, off := 0#8, x := 15500#22, st := .highHalf1,
      y := BitVec.ofNat 17 (s.clr.toNat + 1), e := 1#17, pins := 0b01#2 }
    ∧ exec .hs s = .next { s with
      amp := true, pol := false, off := 0#8, x := 1120#22, st := .highHalf1,
      y := BitVec.ofNat 17 (s.clr.toNat + 1), e := 1#17, pins := 0b01#2 }
    ∧ (∀ off : BitVec 8, off.toNat < s.clr.toNat + 1 →
      exec (.pmp off) s = .next { s with
        amp := true, pol := false, off := off, x := 240#22, st := .highHalf1,
        y := BitVec.ofNat 17 (s.clr.toNat + 1 - off.toNat), e := 1#17, pins := 0b01#2 })
    ∧ (∀ off : BitVec 8, off.toNat = s.clr.toNat + 1 →
      exec (.pmp off) s = .next { s with
        amp := true, pol := false, off := off, x := 239#22, st := .highHalf2,
        y := BitVec.ofNat 17 (s.clr.toNat + 2), e := 0#17, pins := 0b01#2 })
    ∧ (∀ off : BitVec 8, off.toNat < s.clr.toNat + 2 →
      exec (.pmn off) s = .next { s with
        amp := true, pol := true, off := off, x := 240#22, st := .highHalf1,
        y := BitVec.ofNat 17 (s.clr.toNat + 1 + off.toNat), e := 1#17, pins := 0b01#2 })

/-- R154: `cnt = 0`, and `amp = 1` with `cnt ≥ 2` and `off ≥ CLR + 2`, are refused when dequeued; every
other word is executed; and a `PUSH` to a FIFO that is not full appends the word, whatever it is. -/
def Obligations.ReservedWordsRefused : Prop :=
  (∀ (s : State) (w : Word) (rest : List Word), Dequeues w rest s →
    (cntOf w = 0#22 → step s = .refused .reservedCount)
    ∧ (ampOf w = true → 2 ≤ (cntOf w).toNat → s.clr.toNat + 2 ≤ (offOf w).toNat →
        step s = .refused .reservedOffset)
    ∧ (cntOf w ≠ 0#22 →
        ¬(ampOf w = true ∧ 2 ≤ (cntOf w).toNat ∧ s.clr.toNat + 2 ≤ (offOf w).toNat) →
        ∃ t, step s = .next t))
  ∧ (∀ (s : State) (w : Word), Moves (.push w) s → s.fifo.length ≠ s.par.fifoDepth →
      ∃ t, step s = .next t ∧ t.fifo = s.fifo ++ [w])

/-- The frame of the eight descriptors: executing one changes no field but the working registers, `st` and
`pins` (R149); in particular `CLR`, the FIFO's remaining words, the stores, the slots and the counters
stay. -/
def Obligations.DescriptorFrame : Prop :=
  ∀ (i : Instr) (s t : State), exec i s = .next t →
    t = { s with st := t.st, amp := t.amp, pol := t.pol, off := t.off, x := t.x, y := t.y, e := t.e,
                 pins := t.pins }

/-- R155 and R158: every accepted descriptor begins with a first half on the `P` side, whatever came before,
and leaves `SetupDecode` in the tick that dequeues it. -/
def Obligations.DescriptorBeginsOnFirstHalf : Prop :=
  ∀ (i : Instr) (s t : State), s.par.valid = true → exec i s = .next t →
    t.pins = pinsP ∧ isHalf t.st = true ∧ t.amp = i.amp

/-- R148, R149: a tick inside a half-cycle drives the state's level and counts one tick. -/
def Obligations.TickInsideHalf : Prop :=
  ∀ s : State, Moves .tick s → isHalf s.st = true → 2 ≤ s.y.toNat →
    step s = .next { dropMove s with
      y := s.y - 1#17
      e := s.e + 1#17
      pins := if s.st = .highHalf1 then pinsP else if s.st = .highHalf2 then pinsN
              else if s.par.lowDriveTicks ≤ s.e.toNat then pinsZ
              else if s.st = .lowHalf1 then pinsP else pinsN }

/-- R148, R149: the last tick of a half-cycle that is not the descriptor's last exchanges the halves,
decrements `X`, drives the level of the half-cycle that ends, and loads the next one, lengthened by `s` if it is
the last. -/
def Obligations.TickEndsHalf : Prop :=
  ∀ s : State, Moves .tick s → isHalf s.st = true → s.y = 1#17 → 2 ≤ s.x.toNat →
    ∃ t, step s = .next t
      ∧ t = { dropMove s with st := t.st, x := t.x, y := t.y, e := t.e, pins := t.pins }
      ∧ t.x.toNat + 1 = s.x.toNat ∧ t.e = 0#17
      ∧ (s.st = .highHalf1 → t.st = .highHalf2 ∧ t.pins = pinsP)
      ∧ (s.st = .highHalf2 → t.st = .highHalf1 ∧ t.pins = pinsN)
      ∧ (s.st = .lowHalf1 → t.st = .lowHalf2
          ∧ t.pins = if s.e.toNat < s.par.lowDriveTicks then pinsP else pinsZ)
      ∧ (s.st = .lowHalf2 → t.st = .lowHalf1
          ∧ t.pins = if s.e.toNat < s.par.lowDriveTicks then pinsN else pinsZ)
      ∧ (s.amp = false → t.y.toNat = s.clr.toNat + 2)
      ∧ (s.amp = true → t.x.toNat ≠ 1 → t.y.toNat = s.clr.toNat + 2)
      ∧ (s.amp = true → t.x.toNat = 1 → s.pol = false → t.y.toNat = s.clr.toNat + 2 + s.off.toNat)
      ∧ (s.amp = true → t.x.toNat = 1 → s.pol = true → s.off.toNat < s.clr.toNat + 2 →
          t.y.toNat = s.clr.toNat + 2 - s.off.toNat)

/-- R148, R149: the last tick of the last half-cycle drives its level and goes back to `SetupDecode` with
`X = 0`. -/
def Obligations.TickEndsDescriptor : Prop :=
  ∀ s : State, Moves .tick s → isHalf s.st = true → s.y = 1#17 → s.x = 1#22 →
    ∃ t, step s = .next t
      ∧ t = { dropMove s with st := .setupDecode, x := 0#22, y := 0#17, e := s.e + 1#17, pins := t.pins }
      ∧ (s.st = .highHalf1 → t.pins = pinsP) ∧ (s.st = .highHalf2 → t.pins = pinsN)
      ∧ (s.st = .lowHalf1 → t.pins = if s.e.toNat < s.par.lowDriveTicks then pinsP else pinsZ)
      ∧ (s.st = .lowHalf2 → t.pins = if s.e.toNat < s.par.lowDriveTicks then pinsN else pinsZ)

/-- R148, R153: a tick of a stopped sequencer does nothing, and a tick in `SetupDecode` with an empty FIFO is
a stall tick: no register changes and the pins hold. -/
def Obligations.IdleTicksChangeNothing : Prop :=
  ∀ s : State, Moves .tick s → (s.st = .stopped ∨ (s.st = .setupDecode ∧ s.fifo = [])) →
    step s = .next (dropMove s)

/-- R150: the half-cycle length, with its corner cases. -/
def Obligations.HalfCycleLength : Prop :=
  ∀ (clr : BitVec 16) (pol : Bool) (off : BitVec 8) (first last : Bool),
    halfLenInt clr false pol off first last = clr.toNat + 2
    ∧ halfLenInt clr true false off first last
        = (clr.toNat + 2 : Int) - (if first then (off.toNat : Int) else 0) + (if last then (off.toNat : Int) else 0)
    ∧ halfLenInt clr true true off first last
        = (clr.toNat + 2 : Int) + (if first then (off.toNat : Int) else 0) - (if last then (off.toNat : Int) else 0)
    ∧ halfLenInt clr true pol off true true = clr.toNat + 2
    ∧ halfLenInt clr true pol 0#8 first last = clr.toNat + 2
    ∧ (∀ p : Params, p.valid = true → nominalHalf p.clrPreload = p.halfTicks)

/-- R149 to R152: every half-cycle of an accepted descriptor has at least one tick and fits the 17 bits of
`Y`, and together they last `cnt * Hn` ticks whatever the displacement. -/
def Obligations.AcceptedDescriptorDuration : Prop :=
  ∀ (clr : BitVec 16) (i : Instr), Accepted clr i →
    (∀ j, j < i.cnt.toNat → 1 ≤ segmentLen clr i j ∧ segmentLen clr i j < 131072)
    ∧ ((List.range i.cnt.toNat).map (segmentLen clr i)).sum = i.cnt.toNat * (clr.toNat + 2)

/-- R151, R152, R156: from `SetupDecode`, with words in the FIFO none of which is reserved and the clock
alone moving, the pin trace over the ticks that follow is the descriptors' segments in FIFO order, and then the
sequencer is back in `SetupDecode` with those words gone. -/
def Obligations.PinsFollowSegments : Prop :=
  ∀ (ws rest : List Word) (s : State),
    s.par.valid = true → s.agenda = [] → s.st = .setupDecode → s.fifo = ws ++ rest →
    (∀ w ∈ ws, Accepted s.clr (decodeWord w)) →
    pinTrace ((ws.map (fun w => durationTicks s.clr (decodeWord w))).sum) s
      = ws.flatMap (fun w => descriptorLevels s.par s.clr (decodeWord w))
    ∧ ∃ t, Host.Core.run Sys2Proof.core ((ws.map (fun w => durationTicks s.clr (decodeWord w))).sum) s = .next t
      ∧ t.st = .setupDecode ∧ t.fifo = rest ∧ t.clr = s.clr

/-- R16 to R22, R148, R157 as an invariant of every step: the pins are never both driven, a stopped sequencer
drives none, a running one was preloaded and started, the FIFO keeps its depth, and a half state has ticks and
half-cycles left on the path of its amplitude. (That it was started is the bit of log entry 17.) -/
def Obligations.SequencerInvariantKept : Prop :=
  ∀ s t : State, SequencerInv s → step s = .next t → SequencerInv t

/-- R142, R23: what `STATUS` answers, and that issuing it changes nothing. -/
def Obligations.StatusReadsOnly : Prop :=
  (∀ s : State, Moves .status s → step s = .next (dropMove s))
  ∧ (∀ s : State, status s = (decide (s.fifo.length = 0), decide (s.fifo.length = s.par.fifoDepth),
      decide (s.st ≠ .stopped)))
  ∧ status State.reset = (true, false, false)

/-- R143: `PUSH` appends at the tail of a FIFO that is not full, in every state of the sequencer and for
every word, and has no step on a full one. R29: a push after a `START`, be there a `STOP` between or not, sets
`pushedAny`; one before any `START` leaves it (how the model keeps whether there was one is log entry 17). That a held
push uses up its move is log entry 3. -/
def Obligations.PushAppendsOrIsHeld : Prop :=
  ∀ (s : State) (w : Word), Moves (.push w) s →
    (s.fifo.length ≠ s.par.fifoDepth →
      step s = .next { dropMove s with
        fifo := s.fifo ++ [w], pushedAny := s.pushedAny || s.wasStarted })
    ∧ (s.fifo.length = s.par.fifoDepth → step s = .next (dropMove s))

/-- R144: `PRELOAD` writes `CLR` and sets `clrValid` while stopped, and is refused otherwise. -/
def Obligations.PreloadOnlyWhileStopped : Prop :=
  ∀ (s : State) (v : BitVec 16), Moves (.preload v) s →
    (s.st = .stopped → step s = .next { dropMove s with clr := v, clrValid := true })
    ∧ (s.st ≠ .stopped → step s = .refused .preloadWhileRunning)

/-- R145: `START`. That it also sets `wasStarted`, the model's own bit for R29's after `START`, is log entry 17. -/
def Obligations.StartNeedsPreload : Prop :=
  ∀ s : State, Moves .start s →
    (s.clrValid = false → step s = .refused .startBeforePreload)
    ∧ (s.clrValid = true → s.st = .stopped →
        step s = .next { dropMove s with st := .setupDecode, pushedAny := false, wasStarted := true })
    ∧ (s.clrValid = true → s.st ≠ .stopped → step s = .next (dropMove s))

/-- R146: `STOP`, in any state, stops, releases the pins and clears the FIFO; only the working registers
become unspecified (log entry 8), and everything else, `CLR` and `clrValid` among it, keeps its value. -/
def Obligations.StopReleasesAndClears : Prop :=
  ∀ s : State, Moves .stop s → ∃ t, step s = .next t
    ∧ t = { dropMove s with
        st := .stopped, pins := pinsZ, fifo := [], amp := t.amp, pol := t.pol, off := t.off, x := t.x,
        y := t.y, e := t.e, free := t.free }

/-- R46, R52: words leave in the order they entered. A step leaves the FIFO alone, appends one word at the
tail, removes the head (only the clock, in `SetupDecode`), or clears it (only `STOP`). -/
def Obligations.FifoKeepsOrder : Prop :=
  ∀ s t : State, step s = .next t →
    t.fifo = s.fifo
    ∨ (∃ w, t.fifo = s.fifo ++ [w] ∧ (nextMove s = .push w ∨ nextMove s = .pushNext))
    ∨ (∃ w, s.fifo = w :: t.fifo ∧ nextMove s = .tick ∧ s.st = .setupDecode)
    ∨ (t.fifo = [] ∧ nextMove s = .stop)

/-! ## Chip generator and table (41_phase_chip_lfsr.md, 42_descriptor_table.md) -/

/-- R111: `LFSR.STEP`, where it is enabled. -/
def Obligations.LfsrStepEffect : Prop :=
  ∀ s : State, Moves .lfsrStep s → s.n < 512 →
    ∃ t, step s = .next t
      ∧ t = { dropMove s with lfsr := t.lfsr, n := s.n + 1, pat := t.pat }
      ∧ t.lfsr.toNat = (if s.lfsr.toNat % 2 = 1 ∨ s.lfsr.toNat / 2 = 0
          then (s.lfsr.toNat / 2) ^^^ 0x110 else s.lfsr.toNat / 2)
      ∧ patAt t s.n = decide (s.lfsr.toNat % 2 = 1)
      ∧ ∀ k, k ≠ s.n → patAt t k = patAt s k

/-- R112: `LFSR.GEN` from the start value leaves `n = 512`, `lfsr = 0x110` and the 512 chips listed in
95_test_vectors.md section 3.1. -/
def Obligations.LfsrGenProducesListedPattern : Prop :=
  ∀ s : State, Moves .lfsrGen s → s.n = 0 → s.lfsr = 0#9 →
    step s = .next { dropMove s with n := 512, lfsr := 0x110#9, pat := specPattern }

/-- R113: over the 512 steps the register takes 512 distinct values, and 256 chips are one. -/
def Obligations.LfsrVisitsEveryValueOnce : Prop :=
  ((List.range 512).map lfsrAt).Nodup
    ∧ (List.range 512).countP (fun k => chipOf (lfsrAt k)) = 256

/-- R121 to R127: `TAB.BUILD` before `patDone` is refused; after it, it writes the 1028 words at the indices
of R41, sets `tabValid` and changes nothing else. (Once built, the table is not built again: log entry
16.) -/
def Obligations.TableBuildContents : Prop :=
  ∀ s : State, Moves .tabBuild s → s.tabValid = false →
    (s.n ≠ 512 → step s = .refused .tableBeforePattern)
    ∧ (s.n = 512 → ∃ t, step s = .next t
      ∧ t = { dropMove s with tab := t.tab, tabValid := true }
      ∧ t.tab.length = 1028
      ∧ tabAt t 0 = 0x00F23000#32 ∧ tabAt t 1 = 0x01E46000#32 ∧ tabAt t 2 = 0x00F23001#32
      ∧ tabAt t 3 = 0x00118001#32
      ∧ ∀ k, k < 512 →
        (tabAt t (4 + k)).toNat = 240 * 1024 + s.par.phaseTicks * 4 + (patAt s k).toNat * 2 + 1
        ∧ (tabAt t (516 + k)).toNat = 240 * 1024 + s.par.phaseTicks * 4 + (!patAt s k).toNat * 2 + 1)

/-- R128: `LOOKUP` gives the words of a second in order, and is refused before `tabValid`, for a second
outside 0 to 59, and for symbol code 3. R129: which variant a second uses is the parameter `PM_SELECT`, held as one
mask a symbol (log entry 5), and R129's default, which reset has, is `INV` for `ONE` and `PAT` for the others. -/
def Obligations.LookupComposition : Prop :=
  (∀ (p : Params) (i : Nat),
    pmSelect p .zero i = p.pmZero.getLsbD i ∧ pmSelect p .one i = p.pmOne.getLsbD i
    ∧ pmSelect p .minuteMark i = p.pmMark.getLsbD i)
  ∧ (∀ i, i < 60 →
    pmSelect State.reset.par .one i = true ∧ pmSelect State.reset.par .zero i = false
    ∧ pmSelect State.reset.par .minuteMark i = false)
  ∧ ∀ (s : State) (sym : Symbol) (i : Nat),
    (s.tabValid = false → lookup s sym i = .error .lookupBeforeTable)
    ∧ (s.tabValid = true → 60 ≤ i → lookup s sym i = .error .indexOutOfRange)
    ∧ (s.tabValid = true → i < 60 → lookup s .reserved3 i = .error .reservedSymbol)
    ∧ (s.tabValid = true → i < 60 →
        ∃ pm : Symbol → List Word,
          (∀ y, (pm y).length = 512
            ∧ ∀ k, k < 512 → (pm y)[k]? = some (tabAt s ((if pmSelect s.par y i then 516 else 4) + k)))
          ∧ lookup s .zero i = .ok ([tabAt s 0, tabAt s 2] ++ pm .zero ++ [tabAt s 3])
          ∧ lookup s .one i = .ok ([tabAt s 1] ++ pm .one ++ [tabAt s 3])
          ∧ lookup s .minuteMark i = .ok ([tabAt s 2, tabAt s 2] ++ pm .minuteMark ++ [tabAt s 3]))

/-- R130: the counts of every second sum to 155 000 half-cycles and are even, so with `CLR = CLR_PRELOAD` the
second lasts `77 500 * M` ticks. -/
def Obligations.SecondLasts155000HalfCycles : Prop :=
  ∀ (s : State) (sym : Symbol) (i : Nat) (ws : List Word),
    s.par.valid = true → s.tab = tableWords s → lookup s sym i = .ok ws →
    totalCount ws = 155000 ∧ (∀ w ∈ ws, (cntOf w).toNat % 2 = 0)
    ∧ totalCount ws * nominalHalf s.par.clrPreload = 77500 * s.par.clockMult

/-- R5, R249: with parameters that meet R5 and `CLR = CLR_PRELOAD`, the sequencer accepts every word of the
table. -/
def Obligations.TableWordsAreAccepted : Prop :=
  ∀ (s u : State) (w : Word), s.par.valid = true → w ∈ tableWords s → u.clr = s.par.clrPreload →
    ∃ t, exec (decodeWord w) u = .next t

/-- R12 to R15, R53, R112 as an invariant of every step: the register and the chips emitted are the
generator's, and a valid table holds what the complete pattern gives. -/
def Obligations.StoreInvariantKept : Prop :=
  ∀ s t : State, StoreInv s → step s = .next t → StoreInv t

/-! ## TimecodeEncoder (40_timecode_encoder.md) -/

/-- R81: a tuple is valid exactly when every field is in its range; else `ENC` raises
`ProtocolInputError` and gives no vector. The year's range is 0 to `YEAR_MAX`, which R4 puts at 9999. -/
def Obligations.EncodeRejectsExactlyInvalid : Prop :=
  State.reset.par.yearMax = 9999
  ∧ ∀ (yearMax : Nat) (t : TimeTuple) (d : Bool),
    ((t.year ≤ yearMax ∧ 1 ≤ t.month ∧ t.month ≤ 12 ∧ 1 ≤ t.day ∧ t.day ≤ 31 ∧ t.hour ≤ 23 ∧ t.minute ≤ 59
        ∧ t.second ≤ 59 ∧ t.weekday ≤ 6) → ∃ v, enc yearMax t d = .ok v)
    ∧ (¬(t.year ≤ yearMax ∧ 1 ≤ t.month ∧ t.month ≤ 12 ∧ 1 ≤ t.day ∧ t.day ≤ 31 ∧ t.hour ≤ 23
        ∧ t.minute ≤ 59 ∧ t.second ≤ 59 ∧ t.weekday ≤ 6) →
        enc yearMax t d = .error .protocolInputError)

/-- R63: what each of the 60 positions holds. -/
def Obligations.VectorLayout : Prop :=
  ∀ (yearMax : Nat) (t : TimeTuple) (d : Bool) (v : TimecodeVector), enc yearMax t d = .ok v →
    v.length = 60
    ∧ (∀ p, p < 17 → v[p]? = some .zero)
    ∧ v[17]? = some (if d then .one else .zero) ∧ v[18]? = some (if d then .zero else .one)
    ∧ v[19]? = some .zero ∧ v[20]? = some .one
    ∧ (∀ k, k < 4 → v[21 + k]? = some (if (t.minute % 10).testBit k then .one else .zero))
    ∧ (∀ k, k < 3 → v[25 + k]? = some (if (t.minute / 10).testBit k then .one else .zero))
    ∧ v[28]? = some (if ((v.drop 21).take 7).count .one % 2 = 1 then .one else .zero)
    ∧ (∀ k, k < 4 → v[29 + k]? = some (if (t.hour % 10).testBit k then .one else .zero))
    ∧ (∀ k, k < 2 → v[33 + k]? = some (if (t.hour / 10).testBit k then .one else .zero))
    ∧ v[35]? = some (if ((v.drop 29).take 6).count .one % 2 = 1 then .one else .zero)
    ∧ (∀ k, k < 4 → v[36 + k]? = some (if (t.day % 10).testBit k then .one else .zero))
    ∧ (∀ k, k < 2 → v[40 + k]? = some (if (t.day / 10).testBit k then .one else .zero))
    ∧ (∀ k, k < 3 → v[42 + k]? = some (if (t.weekday + 1).testBit k then .one else .zero))
    ∧ (∀ k, k < 4 → v[45 + k]? = some (if (t.month % 10).testBit k then .one else .zero))
    ∧ v[49]? = some (if (t.month / 10).testBit 0 then .one else .zero)
    ∧ (∀ k, k < 4 → v[50 + k]? = some (if (t.year % 100 % 10).testBit k then .one else .zero))
    ∧ (∀ k, k < 4 → v[54 + k]? = some (if (t.year % 100 / 10).testBit k then .one else .zero))
    ∧ v[58]? = some (if ((v.drop 36).take 22).count .one % 2 = 1 then .one else .zero)
    ∧ v[59]? = some .minuteMark

/-- R96: the invariants of every vector `ENC` returns. -/
def Obligations.VectorInvariants : Prop :=
  ∀ (yearMax : Nat) (v : TimecodeVector), EncVector yearMax v →
    v[0]? = some .zero ∧ v[20]? = some .one ∧ v[59]? = some .minuteMark
    ∧ (∀ p, 1 ≤ p → p ≤ 16 → v[p]? = some .zero) ∧ v[19]? = some .zero
    ∧ ((v[17]? = some .one ∧ v[18]? = some .zero) ∨ (v[17]? = some .zero ∧ v[18]? = some .one))
    ∧ (∀ p, p ≤ 58 → v[p]? = some .zero ∨ v[p]? = some .one)
    ∧ ((v.drop 21).take 8).count .one % 2 = 0
    ∧ ((v.drop 29).take 7).count .one % 2 = 0
    ∧ ((v.drop 36).take 23).count .one % 2 = 0

/-- R99: the fields decode to what was encoded, the year modulo 100. -/
def Obligations.VectorRoundTrip : Prop :=
  ∀ (yearMax : Nat) (t : TimeTuple) (d : Bool) (v : TimecodeVector), enc yearMax t d = .ok v →
    fieldValue v 21 4 3 = t.minute ∧ fieldValue v 29 4 2 = t.hour ∧ fieldValue v 36 4 2 = t.day
    ∧ fieldValue v 42 3 0 = t.weekday + 1 ∧ fieldValue v 45 4 1 = t.month
    ∧ fieldValue v 50 4 4 = t.year % 100 ∧ (v[17]? = some .one ↔ d = true)

/-- R95, R98, R100: the vector depends neither on the second nor on the century; toggling the flag changes
positions 17 and 18 only. -/
def Obligations.VectorIgnoresSecondAndCentury : Prop :=
  ∀ (yearMax : Nat) (t : TimeTuple) (d : Bool), validTuple yearMax t = true →
    (∀ sec, sec ≤ 59 → enc yearMax { t with second := sec } d = enc yearMax t d)
    ∧ (∀ y, y ≤ yearMax → y % 100 = t.year % 100 → enc yearMax { t with year := y } d = enc yearMax t d)
    ∧ (∀ v v', enc yearMax t d = .ok v → enc yearMax t (!d) = .ok v' →
        ∀ p, p ≠ 17 → p ≠ 18 → v[p]? = v'[p]?)

/-- R61, R74, R220: the dump of a slot is its vector's characters in 18 groups joined by single spaces, and making
one has no effect on any state. (That there is none of a slot that holds no vector is log entry 3.) -/
def Obligations.DumpGroupsByField : Prop :=
  symbolChar .zero = '0' ∧ symbolChar .one = '1' ∧ symbolChar .minuteMark = 'M'
  ∧ (∀ (b : Bool) (s : State), Moves (.dump b) s →
    step s = .next (dropMove s)
    ∧ (∀ v, slotAt s b = some v → dumpSlot s b = some (dumpVector v))
    ∧ (slotAt s b = none → dumpSlot s b = none))
  ∧ ∀ v : TimecodeVector, v.length = 60 →
    dumpVector v = List.intercalate [' ']
      (([0, 1, 15, 16, 17, 18, 19, 20, 21, 28, 29, 35, 36, 42, 45, 50, 58, 59].zip
        [1, 14, 1, 1, 1, 1, 1, 1, 7, 1, 6, 1, 6, 3, 5, 8, 1, 1]).map
        (fun g => ((v.map symbolChar).drop g.1).take g.2))

/-! ## MinuteScheduler (44_minute_scheduler.md) -/

/-- R171, R232: the return of `alignToSecondEdge`, which makes `ACTIVATE` possible and changes nothing else (that
this stands in a flag is log entry 14), and `ACTIVATE`, where it is enabled. That it uses up the second edge is log
entry 14, that a second outside 0 to 59 is refused here is log entry 26, and that its `START` sets `wasStarted` is log
entry 17. -/
def Obligations.ActivateEffect : Prop :=
  (∀ s : State, Moves .edge s → step s = .next { dropMove s with edge := true })
  ∧ ∀ (s : State) (second : Nat), Moves (.activate second) s →
    s.ms = .idle → (slotAt s s.active).isSome = true → s.tabValid = true → s.clrValid = true → s.edge = true →
    (second ≤ 59 → step s = .next { dropMove s with
        startOffset := second, i := second, q := 0, ms := .streamingCurrent, edge := false,
        st := if s.st = .stopped then .setupDecode else s.st,
        pushedAny := if s.st = .stopped then false else s.pushedAny,
        wasStarted := if s.st = .stopped then true else s.wasStarted })
    ∧ (60 ≤ second → step s = .refused .indexOutOfRange)

/-- R172, R180, R202: `PUSHNEXT`, where it is enabled. One word of the current second is pushed; the empty
FIFO before any push but the first is counted and reported once; the indices go on. -/
def Obligations.PushNextEffect : Prop :=
  ∀ (s : State) (v : TimecodeVector) (sym : Symbol) (seq : List Word) (w : Word),
    Moves .pushNext s → s.ms = .streamingCurrent → s.fifo.length ≠ s.par.fifoDepth →
    slotAt s s.active = some v → v[s.i]? = some sym → lookup s sym s.i = .ok seq → seq[s.q]? = some w →
    ∃ t, step s = .next t
      ∧ t = { dropMove s with
          fifo := s.fifo ++ [w], pushedAny := true, q := t.q, i := t.i, ms := t.ms,
          cntUnderrun := t.cntUnderrun, reports := t.reports }
      ∧ (s.pushedAny = true ∧ s.fifo = [] →
          t.cntUnderrun = s.cntUnderrun + 1
          ∧ t.reports = s.reports ++ [⟨.queueUnderrun, .indices s.i s.q⟩])
      ∧ (¬(s.pushedAny = true ∧ s.fifo = []) →
          t.cntUnderrun = s.cntUnderrun ∧ t.reports = s.reports)
      ∧ (s.q + 1 ≠ seq.length → t.q = s.q + 1 ∧ t.i = s.i ∧ t.ms = .streamingCurrent)
      ∧ (s.q + 1 = seq.length → s.i ≠ 59 → t.q = 0 ∧ t.i = s.i + 1 ∧ t.ms = .streamingCurrent)
      ∧ (s.q + 1 = seq.length → s.i = 59 → t.q = 0 ∧ t.i = 59 ∧ t.ms = .swapping)

/-- R174, R203: the three outcomes of `SWAP`, and its refusal. -/
def Obligations.SwapOutcomes : Prop :=
  ∀ s : State, Moves .swap s → s.ms = .swapping →
    (s.bg = .bgOk →
        step s = .next { dropMove s with
          active := !s.active, minuteGen := s.minuteGen + 1, bg := .bgNone, firstMinute := false, i := 0,
          q := 0, ms := .streamingCurrent })
    ∧ (s.bg = .bgInvalid →
        step s = .next { dropMove s with
          minuteGen := s.minuteGen + 1, bg := .bgNone, firstMinute := false, i := 0, q := 0,
          ms := .streamingCurrent })
    ∧ ((s.bg = .bgRunning ∨ s.bg = .bgNone) →
        ((slotAt s (!s.active)).isSome = true →
          step s = .next { dropMove s with
            cntOverrun := s.cntOverrun + 1,
            reports := s.reports ++ [⟨.scheduleOverrun, .generation s.minuteGen⟩],
            active := !s.active, minuteGen := s.minuteGen + 1, bg := .bgNone, firstMinute := false, i := 0,
            q := 0, ms := .streamingCurrent })
        ∧ (slotAt s (!s.active) = none → step s = .refused .inactiveSlotNeverWritten))

/-- R175, R176, R181, R204: `BG.START`, with the time source's answer to this feeder's request, and the
fallback to the time base where the answer is Unavailable. -/
def Obligations.BgStartEffect : Prop :=
  ∀ (s : State) (r : TsAnswer), Moves (.bgStart r) s → r.asked = s.par.lookahead →
    s.ms = .streamingCurrent → s.bg = .bgNone →
    (∀ t d, r.reading = some (t, d) →
      step s = .next { dropMove s with
        timeBase := some ⟨t, d, s.minuteGen⟩,
        tasks := s.tasks ++ [⟨t, d, !s.active, s.minuteGen⟩], bg := .bgRunning })
    ∧ (∀ b, r.reading = none → s.timeBase = some b →
      step s = .next { dropMove s with
        cntTimeSrc := s.cntTimeSrc + 1,
        reports := s.reports ++ [⟨.timeSourceUnavailable, .nothing⟩],
        tasks := s.tasks ++
          [⟨(Config.advance b.tuple b.summer (60 * (s.minuteGen - b.gen))).1,
            (Config.advance b.tuple b.summer (60 * (s.minuteGen - b.gen))).2, !s.active, s.minuteGen⟩],
        bg := .bgRunning })
    ∧ (r.reading = none → s.timeBase = none → step s = .refused .noTimeBase)

/-- R177 to R179, R182, R201: `BG.FINISH`. The task leaves `tasks`; a vector of this minute is moved in whole
and `bg` is `BgOk`; an error of this minute makes `bg` `BgInvalid`; a late result changes no slot and not
`bg`; an error is counted and reported in either case. -/
def Obligations.BgFinishEffect : Prop :=
  ∀ (s : State) (j : Nat) (k : Task), Moves (.bgFinish j) s → s.tasks[j]? = some k →
    (∀ v, enc s.par.yearMax k.tuple k.summer = .ok v →
      (k.gen = s.minuteGen → step s = .next { dropMove s with
          tasks := s.tasks.eraseIdx j, bg := .bgOk,
          slot0 := if k.target then s.slot0 else some v,
          slot1 := if k.target then some v else s.slot1 })
      ∧ (k.gen ≠ s.minuteGen → step s = .next { dropMove s with tasks := s.tasks.eraseIdx j }))
    ∧ (validTuple s.par.yearMax k.tuple = false →
      step s = .next { dropMove s with
        tasks := s.tasks.eraseIdx j,
        bg := if k.gen = s.minuteGen then .bgInvalid else s.bg,
        cntInputErr := s.cntInputErr + 1,
        reports := s.reports ++ [⟨.protocolInputError, .tuple k.tuple⟩] })

/-- R233, R201, R204: `PRIME`. (It is taken once, while `Idle`: log entry 15.) -/
def Obligations.PrimeEffect : Prop :=
  ∀ (s : State) (r : TsAnswer), Moves (.prime r) s → r.asked = s.par.lookahead → s.ms = .idle →
    s.primed = false →
    (r.reading = none → step s = .refused .noTimeBase)
    ∧ (∀ t d v, r.reading = some (t, d) → enc s.par.yearMax t d = .ok v →
        step s = .next { dropMove s with
          primed := true, timeBase := some ⟨t, d, 0⟩,
          slot0 := if s.active then s.slot0 else some v, slot1 := if s.active then some v else s.slot1 })
    ∧ (∀ t d, r.reading = some (t, d) → validTuple s.par.yearMax t = false →
        step s = .next { dropMove s with
          primed := true, timeBase := some ⟨t, d, 0⟩, cntInputErr := s.cntInputErr + 1,
          reports := s.reports ++ [⟨.protocolInputError, .tuple t⟩] })

/-- The model's choice (log entries 3, 12, 15, 16, 25): a move whose step is not enabled changes nothing but its
place in the agenda. Of such a step the spec says only that there is none. -/
def Obligations.NotEnabledMovesChangeNothing : Prop :=
  ∀ s : State,
    (∀ w, Moves (.push w) s → s.fifo.length = s.par.fifoDepth → step s = .next (dropMove s))
    ∧ (Moves .lfsrStep s → 512 ≤ s.n → step s = .next (dropMove s))
    ∧ (Moves .lfsrGen s → (s.n ≠ 0 ∨ s.lfsr ≠ 0#9) → step s = .next (dropMove s))
    ∧ (Moves .tabBuild s → s.tabValid = true → step s = .next (dropMove s))
    ∧ (∀ n, Moves (.activate n) s →
        (s.ms ≠ .idle ∨ slotAt s s.active = none ∨ s.tabValid = false ∨ s.clrValid = false ∨ s.edge = false) →
        step s = .next (dropMove s))
    ∧ (Moves .pushNext s → (s.ms ≠ .streamingCurrent ∨ s.fifo.length = s.par.fifoDepth) →
        step s = .next (dropMove s))
    ∧ (Moves .swap s → s.ms ≠ .swapping → step s = .next (dropMove s))
    ∧ (∀ r, Moves (.bgStart r) s →
        (s.ms ≠ .streamingCurrent ∨ s.bg ≠ .bgNone ∨ r.asked ≠ s.par.lookahead) → step s = .next (dropMove s))
    ∧ (∀ j, Moves (.bgFinish j) s → s.tasks.length ≤ j → step s = .next (dropMove s))
    ∧ (∀ r, Moves (.prime r) s → (s.ms ≠ .idle ∨ s.primed = true ∨ r.asked ≠ s.par.lookahead) →
        step s = .next (dropMove s))

/-- R24 to R31, R178, R183 as an invariant of every step: a slot holds one complete `ENC` result, this
minute's task targets the inactive slot and is the only one of its minute, the indices are in range, and
each counter counts its reports. -/
def Obligations.FeederInvariantKept : Prop :=
  ∀ s t : State, FeederInv s → step s = .next t → FeederInv t

/-- R48, R183, R244: after activation no step writes the slot that is active, and a step that changes the
other slot installs one complete `ENC` result. -/
def Obligations.ActiveSlotNeverWritten : Prop :=
  ∀ s t : State, FeederInv s → s.ms ≠ .idle → step s = .next t →
    slotAt t s.active = slotAt s s.active
    ∧ (slotAt t (!s.active) ≠ slotAt s (!s.active) →
        ∃ v, slotAt t (!s.active) = some v ∧ EncVector s.par.yearMax v ∧ t.active = s.active)

/-- R48: what the streaming context pushes and the pins show does not depend on the inactive slot: replacing
its content commutes with `PUSHNEXT` and with the clock. -/
def Obligations.InactiveSlotIsNotObserved : Prop :=
  ∀ (s : State) (v : TimecodeVector), nextMove s = .pushNext ∨ nextMove s = .tick →
    (∀ t, step s = .next t → step (setSlot (!s.active) v s) = .next (setSlot (!s.active) v t))
    ∧ (∀ r, step s = .refused r → step (setSlot (!s.active) v s) = .refused r)

/-- R184: each `PUSHNEXT` pushes the first word of what is left of the minute and leaves the rest, until
`Swapping`; what is left at `i = 0`, `q = 0` is the 60 lookups in order, as many words as the symbols
say, lasting 60 times 155 000 half-cycles. R235 (b): over any steps of the agents without a `SWAP` and without a push
through the port, the word trace is what these steps took off the minute, whatever the timing. -/
def Obligations.MinuteStreamIsTheSixtyLookups : Prop :=
  (∀ (s : State) (v : TimecodeVector) (sym : Symbol),
    Moves .pushNext s → s.ms = .streamingCurrent → s.fifo.length ≠ s.par.fifoDepth → s.tabValid = true →
    slotAt s s.active = some v → EncVector s.par.yearMax v → v[s.i]? = some sym → s.q < secondLen sym →
    ∃ w t, step s = .next t ∧ t.fifo = s.fifo ++ [w] ∧ minuteRest s = w :: minuteRest t
      ∧ (minuteRest t = [] ↔ t.ms = .swapping)
      ∧ (t.ms = .streamingCurrent →
          slotAt t t.active = some v ∧ ∃ sym', v[t.i]? = some sym' ∧ t.q < secondLen sym'))
  ∧ (∀ (s : State) (v : TimecodeVector),
    s.par.valid = true → s.ms = .streamingCurrent → slotAt s s.active = some v → EncVector s.par.yearMax v → s.i = 0 →
    s.q = 0 → s.tabValid = true → s.tab = tableWords s →
    minuteRest s = (List.range 60).flatMap (wordsOfSecond s v)
    ∧ (∀ j sym, v[j]? = some sym → lookup s sym j = .ok (wordsOfSecond s v j))
    ∧ (minuteRest s).length = 515 * v.count .zero + 514 * v.count .one + 515
    ∧ totalCount (minuteRest s) = 60 * 155000)
  ∧ (∀ (k : Nat) (s t : State), FeederInv s → s.ms ≠ .idle →
    (∀ a ∈ s.agenda.take k, a ≠ .swap ∧ ∀ w, a ≠ .push w) →
    Host.Core.run Sys2Proof.core k s = .next t →
    minuteRest s = wordTrace k s ++ minuteRest t)

/-! ## The whole machine (60_exceptions.md, 70_reset_and_hazards.md) -/

/-- R200, R209: raising an error increments its kind's counter alone and hands out one report; nothing else
changes; the kinds have the codes 1 to 4; and no error is fatal: no step ends the machine with one. -/
def Obligations.ErrorsAreCountedNeverFatal : Prop :=
  (∀ (k : Fault) (info : ReportInfo) (s : State),
    ∃ c1 c2 c3 c4, raiseError k info s = { s with
        cntInputErr := s.cntInputErr + c1, cntUnderrun := s.cntUnderrun + c2,
        cntOverrun := s.cntOverrun + c3, cntTimeSrc := s.cntTimeSrc + c4,
        reports := s.reports ++ [⟨k, info⟩] }
      ∧ (k = .protocolInputError → c1 = 1 ∧ c2 = 0 ∧ c3 = 0 ∧ c4 = 0)
      ∧ (k = .queueUnderrun → c1 = 0 ∧ c2 = 1 ∧ c3 = 0 ∧ c4 = 0)
      ∧ (k = .scheduleOverrun → c1 = 0 ∧ c2 = 0 ∧ c3 = 1 ∧ c4 = 0)
      ∧ (k = .timeSourceUnavailable → c1 = 0 ∧ c2 = 0 ∧ c3 = 0 ∧ c4 = 1))
  ∧ (errorCode .protocolInputError = 1 ∧ errorCode .queueUnderrun = 2 ∧ errorCode .scheduleOverrun = 3
    ∧ errorCode .timeSourceUnavailable = 4)
  ∧ (∀ (s : State) (f : Fault), step s ≠ .fault f)

/-- R30, R200 to R205: the counters never fall, and each rises only in a step of the agent that raises its
error. -/
def Obligations.CountersRiseOnlyByTheirError : Prop :=
  ∀ s t : State, step s = .next t →
    s.cntInputErr ≤ t.cntInputErr ∧ s.cntUnderrun ≤ t.cntUnderrun ∧ s.cntOverrun ≤ t.cntOverrun
    ∧ s.cntTimeSrc ≤ t.cntTimeSrc
    ∧ (t.cntInputErr ≠ s.cntInputErr →
        (∃ k, nextMove s = .bgFinish k) ∨ ∃ r, nextMove s = .prime r)
    ∧ (t.cntUnderrun ≠ s.cntUnderrun → nextMove s = .pushNext)
    ∧ (t.cntOverrun ≠ s.cntOverrun → nextMove s = .swap)
    ∧ (t.cntTimeSrc ≠ s.cntTimeSrc → ∃ r, nextMove s = .bgStart r)

/-- Who writes what (R12 to R31, R48, R53): a step that changes a piece of state is a step of its writer. That the
port's `PUSH` can set `pushedAny` is log entry 17; `edge`, `primed`, `free` and `wasStarted` are log entries 14, 15, 8
and 17. -/
def Obligations.OnlyTheWriterWrites : Prop :=
  ∀ s t : State, step s = .next t →
    t.par = s.par
    ∧ (t.pins ≠ s.pins → nextMove s = .tick ∨ nextMove s = .stop)
    ∧ (t.st ≠ s.st → nextMove s = .tick ∨ nextMove s = .stop ∨ nextMove s = .start
        ∨ ∃ n, nextMove s = .activate n)
    ∧ ((t.amp, t.pol, t.off, t.x, t.y, t.e) ≠ (s.amp, s.pol, s.off, s.x, s.y, s.e) →
        nextMove s = .tick ∨ nextMove s = .stop)
    ∧ ((t.clr, t.clrValid) ≠ (s.clr, s.clrValid) → ∃ v, nextMove s = .preload v)
    ∧ ((t.lfsr, t.n, t.pat) ≠ (s.lfsr, s.n, s.pat) → nextMove s = .lfsrStep ∨ nextMove s = .lfsrGen)
    ∧ ((t.tab, t.tabValid) ≠ (s.tab, s.tabValid) → nextMove s = .tabBuild)
    ∧ (t.active ≠ s.active → nextMove s = .swap)
    ∧ ((t.slot0, t.slot1) ≠ (s.slot0, s.slot1) →
        (∃ k, nextMove s = .bgFinish k) ∨ ∃ r, nextMove s = .prime r)
    ∧ (t.ms ≠ s.ms → (∃ n, nextMove s = .activate n) ∨ nextMove s = .pushNext ∨ nextMove s = .swap)
    ∧ ((t.i, t.q, t.startOffset, t.firstMinute) ≠ (s.i, s.q, s.startOffset, s.firstMinute) →
        (∃ n, nextMove s = .activate n) ∨ nextMove s = .pushNext ∨ nextMove s = .swap)
    ∧ (t.minuteGen ≠ s.minuteGen → nextMove s = .swap)
    ∧ (t.timeBase ≠ s.timeBase → (∃ r, nextMove s = .prime r) ∨ ∃ r, nextMove s = .bgStart r)
    ∧ (t.fifo ≠ s.fifo → nextMove s = .tick ∨ nextMove s = .stop ∨ nextMove s = .pushNext
        ∨ ∃ w, nextMove s = .push w)
    ∧ (t.pushedAny ≠ s.pushedAny → nextMove s = .start ∨ nextMove s = .pushNext
        ∨ (∃ w, nextMove s = .push w) ∨ ∃ n, nextMove s = .activate n)
    ∧ (t.wasStarted ≠ s.wasStarted → nextMove s = .start ∨ ∃ n, nextMove s = .activate n)
    ∧ (t.bg ≠ s.bg → (∃ r, nextMove s = .bgStart r) ∨ (∃ k, nextMove s = .bgFinish k) ∨ nextMove s = .swap)
    ∧ (t.tasks ≠ s.tasks → (∃ r, nextMove s = .bgStart r) ∨ ∃ k, nextMove s = .bgFinish k)
    ∧ ((t.cntInputErr, t.cntUnderrun, t.cntOverrun, t.cntTimeSrc, t.reports)
          ≠ (s.cntInputErr, s.cntUnderrun, s.cntOverrun, s.cntTimeSrc, s.reports) →
        (∃ k, nextMove s = .bgFinish k) ∨ (∃ r, nextMove s = .prime r) ∨ nextMove s = .pushNext
        ∨ nextMove s = .swap ∨ ∃ r, nextMove s = .bgStart r)
    ∧ (t.edge ≠ s.edge → nextMove s = .edge ∨ ∃ n, nextMove s = .activate n)
    ∧ (t.primed ≠ s.primed → ∃ r, nextMove s = .prime r)
    ∧ (t.free ≠ s.free → nextMove s = .stop)
    ∧ t.agenda = s.agenda.tail

/-- R14, R15, R53: once complete the pattern never changes, and once valid neither does the table. -/
def Obligations.StoresImmutableOnceBuilt : Prop :=
  ∀ s t : State, step s = .next t →
    (s.n = 512 → t.n = 512 ∧ t.pat = s.pat)
    ∧ (s.tabValid = true → t.tabValid = true ∧ t.tab = s.tab)

/-- R34: the state after reset, as far as R34 gives values; `par` and the registers R34 leaves unspecified
are left out (log entries 4, 7 and 9). -/
def Obligations.ResetState : Prop :=
  State.reset.lfsr = 0#9 ∧ State.reset.n = 0 ∧ State.reset.tabValid = false ∧ State.reset.st = .stopped
    ∧ State.reset.clrValid = false ∧ State.reset.pins = 0b00#2 ∧ State.reset.fifo = []
    ∧ State.reset.ms = .idle ∧ State.reset.slot0 = none ∧ State.reset.slot1 = none
    ∧ State.reset.active = false ∧ State.reset.firstMinute = true ∧ State.reset.bg = .bgNone
    ∧ State.reset.tasks = [] ∧ State.reset.minuteGen = 0 ∧ State.reset.pushedAny = false
    ∧ State.reset.cntInputErr = 0 ∧ State.reset.cntUnderrun = 0 ∧ State.reset.cntOverrun = 0
    ∧ State.reset.cntTimeSrc = 0

/-- The three invariants hold at reset, with any parameters, and the stores have their canonical shape
there. -/
def Obligations.ResetMeetsInvariants : Prop :=
  ∀ p : Params,
    SequencerInv { State.reset with par := p } ∧ StoreInv { State.reset with par := p }
    ∧ FeederInv { State.reset with par := p } ∧ Memory.wf { State.reset with par := p } = true

/-- R232: `BOOT`, from reset with any parameters that meet R5 and a valid reading, in every order R232 allows (the
listed one among them): the six moves lead to a machine whose pattern and table are built, whose `CLR` is `H - 2`, whose current vector is primed, and
which streams from the start second with the sequencer started (`wasStarted` is log entry 17). -/
def Obligations.BootReachesStreaming : Prop :=
  ∀ (p : Params) (t : TimeTuple) (d : Bool) (v : TimecodeVector) (second : Nat)
    (boot rest : List Action),
    p.valid = true → enc p.yearMax t d = .ok v → second ≤ 59 →
    BootOrder [.lfsrGen] p ⟨p.lookahead, some (t, d)⟩ second boot →
    ∃ u, Host.Core.run Sys2Proof.core 6
        { State.reset with par := p, agenda := boot ++ rest } = .next u
      ∧ u.n = 512 ∧ u.lfsr = 0x110#9 ∧ u.tabValid = true ∧ u.tab = tableWords u
      ∧ nominalHalf u.clr = p.halfTicks ∧ u.clrValid = true ∧ slotAt u u.active = some v
      ∧ u.timeBase = some ⟨t, d, 0⟩ ∧ u.ms = .streamingCurrent ∧ u.i = second ∧ u.q = 0
      ∧ u.startOffset = second ∧ u.firstMinute = true ∧ u.st = .setupDecode ∧ u.pins = pinsZ
      ∧ u.fifo = [] ∧ u.pushedAny = false ∧ u.wasStarted = true ∧ u.agenda = rest ∧ u.par = p

/-- R5: what the constraints are, and that a machine whose parameters are outside them is refused. -/
def Obligations.ParametersOutsideConstraintsRefused : Prop :=
  (∀ p : Params, p.valid = true ↔
    p.clockMult % 2 = 0 ∧ 2 ≤ p.clockMult / 2 ∧ p.clockMult / 2 - 2 < 2 ^ 16 ∧ 0 < p.phaseTicks
      ∧ p.phaseTicks < p.clockMult / 2 ∧ p.phaseTicks < 2 ^ 8 ∧ 0 < p.lowDriveTicks
      ∧ p.lowDriveTicks < p.clockMult / 2 ∧ 1 ≤ p.fifoDepth)
  ∧ (∀ s : State, s.par.valid = false → step s = .refused .parametersOutOfRange)

end
end

