-- ==== Sys2Proof/Laws/Decode.lean ====
section
/-! SUPPORT. The small laws of the descriptor word's fields (R66): what packing puts where, and that the
four fields determine the word. -/

namespace Sys2Proof

/-- The value of a packed word (R66). -/
theorem packFields_toNat (cnt : BitVec 22) (off : BitVec 8) (pol amp : Bool) :
    (packFields cnt off pol amp).toNat
      = cnt.toNat * 1024 + off.toNat * 4 + pol.toNat * 2 + amp.toNat := by
  have ho : off.toNat < 2 ^ 8 := off.isLt
  have hp : pol.toNat < 2 ^ 1 := Bool.toNat_lt pol
  have ha : amp.toNat < 2 ^ 1 := Bool.toNat_lt amp
  simp only [packFields, BitVec.toNat_append, BitVec.toNat_ofBool]
  rw [← Nat.shiftLeft_add_eq_or_of_lt ha, ← Nat.shiftLeft_add_eq_or_of_lt hp,
    ← Nat.shiftLeft_add_eq_or_of_lt ho]
  simp only [Nat.shiftLeft_eq]
  omega

/-- `cnt` is the word's value divided by 1024 (R66). -/
theorem cntOf_toNat (w : Word) : (cntOf w).toNat = w.toNat / 1024 := by
  have h := w.isLt
  simp only [cntOf, BitVec.extractLsb'_toNat, Nat.shiftRight_eq_div_pow]
  omega

/-- `off` is the word's value divided by 4, modulo 256 (R66). -/
theorem offOf_toNat (w : Word) : (offOf w).toNat = w.toNat / 4 % 256 := by
  simp only [offOf, BitVec.extractLsb'_toNat, Nat.shiftRight_eq_div_pow]

/-- A bit of a word as a number. -/
theorem toNat_getLsbD (w : Word) (k : Nat) : (w.getLsbD k).toNat = w.toNat / 2 ^ k % 2 := by
  simp only [BitVec.getLsbD, Nat.testBit, Nat.one_and_eq_mod_two, Nat.shiftRight_eq_div_pow]
  rcases Nat.mod_two_eq_zero_or_one (w.toNat / 2 ^ k) with h | h <;> simp [h]

/-- `pol` is the word's value divided by 2, modulo 2 (R66). -/
theorem polOf_toNat (w : Word) : (polOf w).toNat = w.toNat / 2 % 2 := toNat_getLsbD w 1

/-- `amp` is the word's value modulo 2 (R66). -/
theorem ampOf_toNat (w : Word) : (ampOf w).toNat = w.toNat % 2 := by
  simpa [ampOf] using toNat_getLsbD w 0

/-- Two flags with one number are one flag. -/
theorem bool_eq_of_toNat {a b : Bool} (h : a.toNat = b.toNat) : a = b := by
  cases a <;> cases b <;> simp_all

@[simp] theorem cntOf_packFields (cnt : BitVec 22) (off : BitVec 8) (pol amp : Bool) :
    cntOf (packFields cnt off pol amp) = cnt := by
  have ho := off.isLt
  have hp := Bool.toNat_le pol
  have ha := Bool.toNat_le amp
  apply BitVec.eq_of_toNat_eq
  rw [cntOf_toNat, packFields_toNat]
  omega

@[simp] theorem offOf_packFields (cnt : BitVec 22) (off : BitVec 8) (pol amp : Bool) :
    offOf (packFields cnt off pol amp) = off := by
  have ho := off.isLt
  have hp := Bool.toNat_le pol
  have ha := Bool.toNat_le amp
  apply BitVec.eq_of_toNat_eq
  rw [offOf_toNat, packFields_toNat]
  omega

@[simp] theorem polOf_packFields (cnt : BitVec 22) (off : BitVec 8) (pol amp : Bool) :
    polOf (packFields cnt off pol amp) = pol := by
  have ha := Bool.toNat_le amp
  have hp := Bool.toNat_le pol
  apply bool_eq_of_toNat
  rw [polOf_toNat, packFields_toNat]
  omega

@[simp] theorem ampOf_packFields (cnt : BitVec 22) (off : BitVec 8) (pol amp : Bool) :
    ampOf (packFields cnt off pol amp) = amp := by
  have ha := Bool.toNat_le amp
  apply bool_eq_of_toNat
  rw [ampOf_toNat, packFields_toNat]
  omega

/-- Packing a word's own fields gives the word back. -/
theorem packFields_of_fields (w : Word) : packFields (cntOf w) (offOf w) (polOf w) (ampOf w) = w := by
  apply BitVec.eq_of_toNat_eq
  rw [packFields_toNat, cntOf_toNat, offOf_toNat, polOf_toNat, ampOf_toNat]
  omega

/-- Reading a word back from its serial bytes (log entry 20). -/
theorem wordOfBytes_bytes (w : Word) :
    wordOfBytes (w.extractLsb' 0 8) (w.extractLsb' 8 8) (w.extractLsb' 16 8) (w.extractLsb' 24 8) = w := by
  apply BitVec.eq_of_getLsbD_eq
  intro k hk
  simp only [wordOfBytes, BitVec.getLsbD_append, BitVec.getLsbD_extractLsb']
  by_cases h0 : k < 8
  · simp [h0]
  · by_cases h1 : k < 16
    · have e : 8 + (k - 8) = k := by omega
      simp [h0, show k - 8 < 8 by omega, e]
    · by_cases h2 : k < 24
      · have e : 16 + (k - 8 - 8) = k := by omega
        simp [h0, show ¬ k - 8 < 8 by omega, show k - 8 - 8 < 8 by omega, e]
      · have e : 24 + (k - 8 - 8 - 8) = k := by omega
        simp [h0, show ¬ k - 8 < 8 by omega, show ¬ k - 8 - 8 < 8 by omega, show k - 8 - 8 - 8 < 8 by omega, e]

end Sys2Proof
end

