-- ==== Sys2Proof/Laws/State.lean ====
section
/-! SUPPORT. For every named update of State, one lemma per field: what the update leaves in it. Each is
true by unfolding the update, so no later proof unfolds one. -/

namespace Sys2Proof.Machine

section
variable (k : Fault) (info : ReportInfo) (s : State)

@[simp] theorem raiseError_par : (raiseError k info s).par = s.par := rfl
@[simp] theorem raiseError_lfsr : (raiseError k info s).lfsr = s.lfsr := rfl
@[simp] theorem raiseError_n : (raiseError k info s).n = s.n := rfl
@[simp] theorem raiseError_pat : (raiseError k info s).pat = s.pat := rfl
@[simp] theorem raiseError_tab : (raiseError k info s).tab = s.tab := rfl
@[simp] theorem raiseError_tabValid : (raiseError k info s).tabValid = s.tabValid := rfl
@[simp] theorem raiseError_st : (raiseError k info s).st = s.st := rfl
@[simp] theorem raiseError_clr : (raiseError k info s).clr = s.clr := rfl
@[simp] theorem raiseError_clrValid : (raiseError k info s).clrValid = s.clrValid := rfl
@[simp] theorem raiseError_amp : (raiseError k info s).amp = s.amp := rfl
@[simp] theorem raiseError_pol : (raiseError k info s).pol = s.pol := rfl
@[simp] theorem raiseError_off : (raiseError k info s).off = s.off := rfl
@[simp] theorem raiseError_x : (raiseError k info s).x = s.x := rfl
@[simp] theorem raiseError_y : (raiseError k info s).y = s.y := rfl
@[simp] theorem raiseError_e : (raiseError k info s).e = s.e := rfl
@[simp] theorem raiseError_pins : (raiseError k info s).pins = s.pins := rfl
@[simp] theorem raiseError_fifo : (raiseError k info s).fifo = s.fifo := rfl
@[simp] theorem raiseError_ms : (raiseError k info s).ms = s.ms := rfl
@[simp] theorem raiseError_slot0 : (raiseError k info s).slot0 = s.slot0 := rfl
@[simp] theorem raiseError_slot1 : (raiseError k info s).slot1 = s.slot1 := rfl
@[simp] theorem raiseError_active : (raiseError k info s).active = s.active := rfl
@[simp] theorem raiseError_i : (raiseError k info s).i = s.i := rfl
@[simp] theorem raiseError_q : (raiseError k info s).q = s.q := rfl
@[simp] theorem raiseError_firstMinute : (raiseError k info s).firstMinute = s.firstMinute := rfl
@[simp] theorem raiseError_startOffset : (raiseError k info s).startOffset = s.startOffset := rfl
@[simp] theorem raiseError_bg : (raiseError k info s).bg = s.bg := rfl
@[simp] theorem raiseError_tasks : (raiseError k info s).tasks = s.tasks := rfl
@[simp] theorem raiseError_minuteGen : (raiseError k info s).minuteGen = s.minuteGen := rfl
@[simp] theorem raiseError_pushedAny : (raiseError k info s).pushedAny = s.pushedAny := rfl
@[simp] theorem raiseError_wasStarted : (raiseError k info s).wasStarted = s.wasStarted := rfl
@[simp] theorem raiseError_cntInputErr : (raiseError k info s).cntInputErr = (bump k .protocolInputError s.cntInputErr) := rfl
@[simp] theorem raiseError_cntUnderrun : (raiseError k info s).cntUnderrun = (bump k .queueUnderrun s.cntUnderrun) := rfl
@[simp] theorem raiseError_cntOverrun : (raiseError k info s).cntOverrun = (bump k .scheduleOverrun s.cntOverrun) := rfl
@[simp] theorem raiseError_cntTimeSrc : (raiseError k info s).cntTimeSrc = (bump k .timeSourceUnavailable s.cntTimeSrc) := rfl
@[simp] theorem raiseError_timeBase : (raiseError k info s).timeBase = s.timeBase := rfl
@[simp] theorem raiseError_reports : (raiseError k info s).reports = (s.reports ++ [⟨k, info⟩]) := rfl
@[simp] theorem raiseError_edge : (raiseError k info s).edge = s.edge := rfl
@[simp] theorem raiseError_primed : (raiseError k info s).primed = s.primed := rfl
@[simp] theorem raiseError_free : (raiseError k info s).free = s.free := rfl
@[simp] theorem raiseError_agenda : (raiseError k info s).agenda = s.agenda := rfl
end

section
variable (w : Word) (s : State)

@[simp] theorem fifoPush_par : (fifoPush w s).par = s.par := rfl
@[simp] theorem fifoPush_lfsr : (fifoPush w s).lfsr = s.lfsr := rfl
@[simp] theorem fifoPush_n : (fifoPush w s).n = s.n := rfl
@[simp] theorem fifoPush_pat : (fifoPush w s).pat = s.pat := rfl
@[simp] theorem fifoPush_tab : (fifoPush w s).tab = s.tab := rfl
@[simp] theorem fifoPush_tabValid : (fifoPush w s).tabValid = s.tabValid := rfl
@[simp] theorem fifoPush_st : (fifoPush w s).st = s.st := rfl
@[simp] theorem fifoPush_clr : (fifoPush w s).clr = s.clr := rfl
@[simp] theorem fifoPush_clrValid : (fifoPush w s).clrValid = s.clrValid := rfl
@[simp] theorem fifoPush_amp : (fifoPush w s).amp = s.amp := rfl
@[simp] theorem fifoPush_pol : (fifoPush w s).pol = s.pol := rfl
@[simp] theorem fifoPush_off : (fifoPush w s).off = s.off := rfl
@[simp] theorem fifoPush_x : (fifoPush w s).x = s.x := rfl
@[simp] theorem fifoPush_y : (fifoPush w s).y = s.y := rfl
@[simp] theorem fifoPush_e : (fifoPush w s).e = s.e := rfl
@[simp] theorem fifoPush_pins : (fifoPush w s).pins = s.pins := rfl
@[simp] theorem fifoPush_fifo : (fifoPush w s).fifo = (s.fifo ++ [w]) := rfl
@[simp] theorem fifoPush_ms : (fifoPush w s).ms = s.ms := rfl
@[simp] theorem fifoPush_slot0 : (fifoPush w s).slot0 = s.slot0 := rfl
@[simp] theorem fifoPush_slot1 : (fifoPush w s).slot1 = s.slot1 := rfl
@[simp] theorem fifoPush_active : (fifoPush w s).active = s.active := rfl
@[simp] theorem fifoPush_i : (fifoPush w s).i = s.i := rfl
@[simp] theorem fifoPush_q : (fifoPush w s).q = s.q := rfl
@[simp] theorem fifoPush_firstMinute : (fifoPush w s).firstMinute = s.firstMinute := rfl
@[simp] theorem fifoPush_startOffset : (fifoPush w s).startOffset = s.startOffset := rfl
@[simp] theorem fifoPush_bg : (fifoPush w s).bg = s.bg := rfl
@[simp] theorem fifoPush_tasks : (fifoPush w s).tasks = s.tasks := rfl
@[simp] theorem fifoPush_minuteGen : (fifoPush w s).minuteGen = s.minuteGen := rfl
@[simp] theorem fifoPush_pushedAny : (fifoPush w s).pushedAny = s.pushedAny := rfl
@[simp] theorem fifoPush_wasStarted : (fifoPush w s).wasStarted = s.wasStarted := rfl
@[simp] theorem fifoPush_cntInputErr : (fifoPush w s).cntInputErr = s.cntInputErr := rfl
@[simp] theorem fifoPush_cntUnderrun : (fifoPush w s).cntUnderrun = s.cntUnderrun := rfl
@[simp] theorem fifoPush_cntOverrun : (fifoPush w s).cntOverrun = s.cntOverrun := rfl
@[simp] theorem fifoPush_cntTimeSrc : (fifoPush w s).cntTimeSrc = s.cntTimeSrc := rfl
@[simp] theorem fifoPush_timeBase : (fifoPush w s).timeBase = s.timeBase := rfl
@[simp] theorem fifoPush_reports : (fifoPush w s).reports = s.reports := rfl
@[simp] theorem fifoPush_edge : (fifoPush w s).edge = s.edge := rfl
@[simp] theorem fifoPush_primed : (fifoPush w s).primed = s.primed := rfl
@[simp] theorem fifoPush_free : (fifoPush w s).free = s.free := rfl
@[simp] theorem fifoPush_agenda : (fifoPush w s).agenda = s.agenda := rfl
end

section
variable (s : State)

@[simp] theorem fifoPop_par : (fifoPop s).par = s.par := rfl
@[simp] theorem fifoPop_lfsr : (fifoPop s).lfsr = s.lfsr := rfl
@[simp] theorem fifoPop_n : (fifoPop s).n = s.n := rfl
@[simp] theorem fifoPop_pat : (fifoPop s).pat = s.pat := rfl
@[simp] theorem fifoPop_tab : (fifoPop s).tab = s.tab := rfl
@[simp] theorem fifoPop_tabValid : (fifoPop s).tabValid = s.tabValid := rfl
@[simp] theorem fifoPop_st : (fifoPop s).st = s.st := rfl
@[simp] theorem fifoPop_clr : (fifoPop s).clr = s.clr := rfl
@[simp] theorem fifoPop_clrValid : (fifoPop s).clrValid = s.clrValid := rfl
@[simp] theorem fifoPop_amp : (fifoPop s).amp = s.amp := rfl
@[simp] theorem fifoPop_pol : (fifoPop s).pol = s.pol := rfl
@[simp] theorem fifoPop_off : (fifoPop s).off = s.off := rfl
@[simp] theorem fifoPop_x : (fifoPop s).x = s.x := rfl
@[simp] theorem fifoPop_y : (fifoPop s).y = s.y := rfl
@[simp] theorem fifoPop_e : (fifoPop s).e = s.e := rfl
@[simp] theorem fifoPop_pins : (fifoPop s).pins = s.pins := rfl
@[simp] theorem fifoPop_fifo : (fifoPop s).fifo = s.fifo.tail := rfl
@[simp] theorem fifoPop_ms : (fifoPop s).ms = s.ms := rfl
@[simp] theorem fifoPop_slot0 : (fifoPop s).slot0 = s.slot0 := rfl
@[simp] theorem fifoPop_slot1 : (fifoPop s).slot1 = s.slot1 := rfl
@[simp] theorem fifoPop_active : (fifoPop s).active = s.active := rfl
@[simp] theorem fifoPop_i : (fifoPop s).i = s.i := rfl
@[simp] theorem fifoPop_q : (fifoPop s).q = s.q := rfl
@[simp] theorem fifoPop_firstMinute : (fifoPop s).firstMinute = s.firstMinute := rfl
@[simp] theorem fifoPop_startOffset : (fifoPop s).startOffset = s.startOffset := rfl
@[simp] theorem fifoPop_bg : (fifoPop s).bg = s.bg := rfl
@[simp] theorem fifoPop_tasks : (fifoPop s).tasks = s.tasks := rfl
@[simp] theorem fifoPop_minuteGen : (fifoPop s).minuteGen = s.minuteGen := rfl
@[simp] theorem fifoPop_pushedAny : (fifoPop s).pushedAny = s.pushedAny := rfl
@[simp] theorem fifoPop_wasStarted : (fifoPop s).wasStarted = s.wasStarted := rfl
@[simp] theorem fifoPop_cntInputErr : (fifoPop s).cntInputErr = s.cntInputErr := rfl
@[simp] theorem fifoPop_cntUnderrun : (fifoPop s).cntUnderrun = s.cntUnderrun := rfl
@[simp] theorem fifoPop_cntOverrun : (fifoPop s).cntOverrun = s.cntOverrun := rfl
@[simp] theorem fifoPop_cntTimeSrc : (fifoPop s).cntTimeSrc = s.cntTimeSrc := rfl
@[simp] theorem fifoPop_timeBase : (fifoPop s).timeBase = s.timeBase := rfl
@[simp] theorem fifoPop_reports : (fifoPop s).reports = s.reports := rfl
@[simp] theorem fifoPop_edge : (fifoPop s).edge = s.edge := rfl
@[simp] theorem fifoPop_primed : (fifoPop s).primed = s.primed := rfl
@[simp] theorem fifoPop_free : (fifoPop s).free = s.free := rfl
@[simp] theorem fifoPop_agenda : (fifoPop s).agenda = s.agenda := rfl
end

section
variable (s : State)

@[simp] theorem fifoClear_par : (fifoClear s).par = s.par := rfl
@[simp] theorem fifoClear_lfsr : (fifoClear s).lfsr = s.lfsr := rfl
@[simp] theorem fifoClear_n : (fifoClear s).n = s.n := rfl
@[simp] theorem fifoClear_pat : (fifoClear s).pat = s.pat := rfl
@[simp] theorem fifoClear_tab : (fifoClear s).tab = s.tab := rfl
@[simp] theorem fifoClear_tabValid : (fifoClear s).tabValid = s.tabValid := rfl
@[simp] theorem fifoClear_st : (fifoClear s).st = s.st := rfl
@[simp] theorem fifoClear_clr : (fifoClear s).clr = s.clr := rfl
@[simp] theorem fifoClear_clrValid : (fifoClear s).clrValid = s.clrValid := rfl
@[simp] theorem fifoClear_amp : (fifoClear s).amp = s.amp := rfl
@[simp] theorem fifoClear_pol : (fifoClear s).pol = s.pol := rfl
@[simp] theorem fifoClear_off : (fifoClear s).off = s.off := rfl
@[simp] theorem fifoClear_x : (fifoClear s).x = s.x := rfl
@[simp] theorem fifoClear_y : (fifoClear s).y = s.y := rfl
@[simp] theorem fifoClear_e : (fifoClear s).e = s.e := rfl
@[simp] theorem fifoClear_pins : (fifoClear s).pins = s.pins := rfl
@[simp] theorem fifoClear_fifo : (fifoClear s).fifo = [] := rfl
@[simp] theorem fifoClear_ms : (fifoClear s).ms = s.ms := rfl
@[simp] theorem fifoClear_slot0 : (fifoClear s).slot0 = s.slot0 := rfl
@[simp] theorem fifoClear_slot1 : (fifoClear s).slot1 = s.slot1 := rfl
@[simp] theorem fifoClear_active : (fifoClear s).active = s.active := rfl
@[simp] theorem fifoClear_i : (fifoClear s).i = s.i := rfl
@[simp] theorem fifoClear_q : (fifoClear s).q = s.q := rfl
@[simp] theorem fifoClear_firstMinute : (fifoClear s).firstMinute = s.firstMinute := rfl
@[simp] theorem fifoClear_startOffset : (fifoClear s).startOffset = s.startOffset := rfl
@[simp] theorem fifoClear_bg : (fifoClear s).bg = s.bg := rfl
@[simp] theorem fifoClear_tasks : (fifoClear s).tasks = s.tasks := rfl
@[simp] theorem fifoClear_minuteGen : (fifoClear s).minuteGen = s.minuteGen := rfl
@[simp] theorem fifoClear_pushedAny : (fifoClear s).pushedAny = s.pushedAny := rfl
@[simp] theorem fifoClear_wasStarted : (fifoClear s).wasStarted = s.wasStarted := rfl
@[simp] theorem fifoClear_cntInputErr : (fifoClear s).cntInputErr = s.cntInputErr := rfl
@[simp] theorem fifoClear_cntUnderrun : (fifoClear s).cntUnderrun = s.cntUnderrun := rfl
@[simp] theorem fifoClear_cntOverrun : (fifoClear s).cntOverrun = s.cntOverrun := rfl
@[simp] theorem fifoClear_cntTimeSrc : (fifoClear s).cntTimeSrc = s.cntTimeSrc := rfl
@[simp] theorem fifoClear_timeBase : (fifoClear s).timeBase = s.timeBase := rfl
@[simp] theorem fifoClear_reports : (fifoClear s).reports = s.reports := rfl
@[simp] theorem fifoClear_edge : (fifoClear s).edge = s.edge := rfl
@[simp] theorem fifoClear_primed : (fifoClear s).primed = s.primed := rfl
@[simp] theorem fifoClear_free : (fifoClear s).free = s.free := rfl
@[simp] theorem fifoClear_agenda : (fifoClear s).agenda = s.agenda := rfl
end

section
variable (b : Bool) (v : TimecodeVector) (s : State)

@[simp] theorem setSlot_par : (setSlot b v s).par = s.par := rfl
@[simp] theorem setSlot_lfsr : (setSlot b v s).lfsr = s.lfsr := rfl
@[simp] theorem setSlot_n : (setSlot b v s).n = s.n := rfl
@[simp] theorem setSlot_pat : (setSlot b v s).pat = s.pat := rfl
@[simp] theorem setSlot_tab : (setSlot b v s).tab = s.tab := rfl
@[simp] theorem setSlot_tabValid : (setSlot b v s).tabValid = s.tabValid := rfl
@[simp] theorem setSlot_st : (setSlot b v s).st = s.st := rfl
@[simp] theorem setSlot_clr : (setSlot b v s).clr = s.clr := rfl
@[simp] theorem setSlot_clrValid : (setSlot b v s).clrValid = s.clrValid := rfl
@[simp] theorem setSlot_amp : (setSlot b v s).amp = s.amp := rfl
@[simp] theorem setSlot_pol : (setSlot b v s).pol = s.pol := rfl
@[simp] theorem setSlot_off : (setSlot b v s).off = s.off := rfl
@[simp] theorem setSlot_x : (setSlot b v s).x = s.x := rfl
@[simp] theorem setSlot_y : (setSlot b v s).y = s.y := rfl
@[simp] theorem setSlot_e : (setSlot b v s).e = s.e := rfl
@[simp] theorem setSlot_pins : (setSlot b v s).pins = s.pins := rfl
@[simp] theorem setSlot_fifo : (setSlot b v s).fifo = s.fifo := rfl
@[simp] theorem setSlot_ms : (setSlot b v s).ms = s.ms := rfl
@[simp] theorem setSlot_slot0 : (setSlot b v s).slot0 = (if b then s.slot0 else some v) := rfl
@[simp] theorem setSlot_slot1 : (setSlot b v s).slot1 = (if b then some v else s.slot1) := rfl
@[simp] theorem setSlot_active : (setSlot b v s).active = s.active := rfl
@[simp] theorem setSlot_i : (setSlot b v s).i = s.i := rfl
@[simp] theorem setSlot_q : (setSlot b v s).q = s.q := rfl
@[simp] theorem setSlot_firstMinute : (setSlot b v s).firstMinute = s.firstMinute := rfl
@[simp] theorem setSlot_startOffset : (setSlot b v s).startOffset = s.startOffset := rfl
@[simp] theorem setSlot_bg : (setSlot b v s).bg = s.bg := rfl
@[simp] theorem setSlot_tasks : (setSlot b v s).tasks = s.tasks := rfl
@[simp] theorem setSlot_minuteGen : (setSlot b v s).minuteGen = s.minuteGen := rfl
@[simp] theorem setSlot_pushedAny : (setSlot b v s).pushedAny = s.pushedAny := rfl
@[simp] theorem setSlot_wasStarted : (setSlot b v s).wasStarted = s.wasStarted := rfl
@[simp] theorem setSlot_cntInputErr : (setSlot b v s).cntInputErr = s.cntInputErr := rfl
@[simp] theorem setSlot_cntUnderrun : (setSlot b v s).cntUnderrun = s.cntUnderrun := rfl
@[simp] theorem setSlot_cntOverrun : (setSlot b v s).cntOverrun = s.cntOverrun := rfl
@[simp] theorem setSlot_cntTimeSrc : (setSlot b v s).cntTimeSrc = s.cntTimeSrc := rfl
@[simp] theorem setSlot_timeBase : (setSlot b v s).timeBase = s.timeBase := rfl
@[simp] theorem setSlot_reports : (setSlot b v s).reports = s.reports := rfl
@[simp] theorem setSlot_edge : (setSlot b v s).edge = s.edge := rfl
@[simp] theorem setSlot_primed : (setSlot b v s).primed = s.primed := rfl
@[simp] theorem setSlot_free : (setSlot b v s).free = s.free := rfl
@[simp] theorem setSlot_agenda : (setSlot b v s).agenda = s.agenda := rfl
end

section
variable (w : Word) (s : State)

@[simp] theorem pushWord_par : (pushWord w s).par = s.par := rfl
@[simp] theorem pushWord_lfsr : (pushWord w s).lfsr = s.lfsr := rfl
@[simp] theorem pushWord_n : (pushWord w s).n = s.n := rfl
@[simp] theorem pushWord_pat : (pushWord w s).pat = s.pat := rfl
@[simp] theorem pushWord_tab : (pushWord w s).tab = s.tab := rfl
@[simp] theorem pushWord_tabValid : (pushWord w s).tabValid = s.tabValid := rfl
@[simp] theorem pushWord_st : (pushWord w s).st = s.st := rfl
@[simp] theorem pushWord_clr : (pushWord w s).clr = s.clr := rfl
@[simp] theorem pushWord_clrValid : (pushWord w s).clrValid = s.clrValid := rfl
@[simp] theorem pushWord_amp : (pushWord w s).amp = s.amp := rfl
@[simp] theorem pushWord_pol : (pushWord w s).pol = s.pol := rfl
@[simp] theorem pushWord_off : (pushWord w s).off = s.off := rfl
@[simp] theorem pushWord_x : (pushWord w s).x = s.x := rfl
@[simp] theorem pushWord_y : (pushWord w s).y = s.y := rfl
@[simp] theorem pushWord_e : (pushWord w s).e = s.e := rfl
@[simp] theorem pushWord_pins : (pushWord w s).pins = s.pins := rfl
@[simp] theorem pushWord_fifo : (pushWord w s).fifo = (s.fifo ++ [w]) := rfl
@[simp] theorem pushWord_ms : (pushWord w s).ms = s.ms := rfl
@[simp] theorem pushWord_slot0 : (pushWord w s).slot0 = s.slot0 := rfl
@[simp] theorem pushWord_slot1 : (pushWord w s).slot1 = s.slot1 := rfl
@[simp] theorem pushWord_active : (pushWord w s).active = s.active := rfl
@[simp] theorem pushWord_i : (pushWord w s).i = s.i := rfl
@[simp] theorem pushWord_q : (pushWord w s).q = s.q := rfl
@[simp] theorem pushWord_firstMinute : (pushWord w s).firstMinute = s.firstMinute := rfl
@[simp] theorem pushWord_startOffset : (pushWord w s).startOffset = s.startOffset := rfl
@[simp] theorem pushWord_bg : (pushWord w s).bg = s.bg := rfl
@[simp] theorem pushWord_tasks : (pushWord w s).tasks = s.tasks := rfl
@[simp] theorem pushWord_minuteGen : (pushWord w s).minuteGen = s.minuteGen := rfl
@[simp] theorem pushWord_pushedAny : (pushWord w s).pushedAny = (s.pushedAny || s.wasStarted) := rfl
@[simp] theorem pushWord_wasStarted : (pushWord w s).wasStarted = s.wasStarted := rfl
@[simp] theorem pushWord_cntInputErr : (pushWord w s).cntInputErr = s.cntInputErr := rfl
@[simp] theorem pushWord_cntUnderrun : (pushWord w s).cntUnderrun = s.cntUnderrun := rfl
@[simp] theorem pushWord_cntOverrun : (pushWord w s).cntOverrun = s.cntOverrun := rfl
@[simp] theorem pushWord_cntTimeSrc : (pushWord w s).cntTimeSrc = s.cntTimeSrc := rfl
@[simp] theorem pushWord_timeBase : (pushWord w s).timeBase = s.timeBase := rfl
@[simp] theorem pushWord_reports : (pushWord w s).reports = s.reports := rfl
@[simp] theorem pushWord_edge : (pushWord w s).edge = s.edge := rfl
@[simp] theorem pushWord_primed : (pushWord w s).primed = s.primed := rfl
@[simp] theorem pushWord_free : (pushWord w s).free = s.free := rfl
@[simp] theorem pushWord_agenda : (pushWord w s).agenda = s.agenda := rfl
end

section
variable (w : Word) (s : State)

@[simp] theorem streamWord_par : (streamWord w s).par = s.par := rfl
@[simp] theorem streamWord_lfsr : (streamWord w s).lfsr = s.lfsr := rfl
@[simp] theorem streamWord_n : (streamWord w s).n = s.n := rfl
@[simp] theorem streamWord_pat : (streamWord w s).pat = s.pat := rfl
@[simp] theorem streamWord_tab : (streamWord w s).tab = s.tab := rfl
@[simp] theorem streamWord_tabValid : (streamWord w s).tabValid = s.tabValid := rfl
@[simp] theorem streamWord_st : (streamWord w s).st = s.st := rfl
@[simp] theorem streamWord_clr : (streamWord w s).clr = s.clr := rfl
@[simp] theorem streamWord_clrValid : (streamWord w s).clrValid = s.clrValid := rfl
@[simp] theorem streamWord_amp : (streamWord w s).amp = s.amp := rfl
@[simp] theorem streamWord_pol : (streamWord w s).pol = s.pol := rfl
@[simp] theorem streamWord_off : (streamWord w s).off = s.off := rfl
@[simp] theorem streamWord_x : (streamWord w s).x = s.x := rfl
@[simp] theorem streamWord_y : (streamWord w s).y = s.y := rfl
@[simp] theorem streamWord_e : (streamWord w s).e = s.e := rfl
@[simp] theorem streamWord_pins : (streamWord w s).pins = s.pins := rfl
@[simp] theorem streamWord_fifo : (streamWord w s).fifo = (s.fifo ++ [w]) := rfl
@[simp] theorem streamWord_ms : (streamWord w s).ms = s.ms := rfl
@[simp] theorem streamWord_slot0 : (streamWord w s).slot0 = s.slot0 := rfl
@[simp] theorem streamWord_slot1 : (streamWord w s).slot1 = s.slot1 := rfl
@[simp] theorem streamWord_active : (streamWord w s).active = s.active := rfl
@[simp] theorem streamWord_i : (streamWord w s).i = s.i := rfl
@[simp] theorem streamWord_q : (streamWord w s).q = s.q := rfl
@[simp] theorem streamWord_firstMinute : (streamWord w s).firstMinute = s.firstMinute := rfl
@[simp] theorem streamWord_startOffset : (streamWord w s).startOffset = s.startOffset := rfl
@[simp] theorem streamWord_bg : (streamWord w s).bg = s.bg := rfl
@[simp] theorem streamWord_tasks : (streamWord w s).tasks = s.tasks := rfl
@[simp] theorem streamWord_minuteGen : (streamWord w s).minuteGen = s.minuteGen := rfl
@[simp] theorem streamWord_pushedAny : (streamWord w s).pushedAny = true := rfl
@[simp] theorem streamWord_wasStarted : (streamWord w s).wasStarted = s.wasStarted := rfl
@[simp] theorem streamWord_cntInputErr : (streamWord w s).cntInputErr = s.cntInputErr := rfl
@[simp] theorem streamWord_cntUnderrun : (streamWord w s).cntUnderrun = s.cntUnderrun := rfl
@[simp] theorem streamWord_cntOverrun : (streamWord w s).cntOverrun = s.cntOverrun := rfl
@[simp] theorem streamWord_cntTimeSrc : (streamWord w s).cntTimeSrc = s.cntTimeSrc := rfl
@[simp] theorem streamWord_timeBase : (streamWord w s).timeBase = s.timeBase := rfl
@[simp] theorem streamWord_reports : (streamWord w s).reports = s.reports := rfl
@[simp] theorem streamWord_edge : (streamWord w s).edge = s.edge := rfl
@[simp] theorem streamWord_primed : (streamWord w s).primed = s.primed := rfl
@[simp] theorem streamWord_free : (streamWord w s).free = s.free := rfl
@[simp] theorem streamWord_agenda : (streamWord w s).agenda = s.agenda := rfl
end

section
variable (amp pol : Bool) (off : BitVec 8) (cnt : BitVec 22) (s : State)

@[simp] theorem latch_par : (latch amp pol off cnt s).par = s.par := rfl
@[simp] theorem latch_lfsr : (latch amp pol off cnt s).lfsr = s.lfsr := rfl
@[simp] theorem latch_n : (latch amp pol off cnt s).n = s.n := rfl
@[simp] theorem latch_pat : (latch amp pol off cnt s).pat = s.pat := rfl
@[simp] theorem latch_tab : (latch amp pol off cnt s).tab = s.tab := rfl
@[simp] theorem latch_tabValid : (latch amp pol off cnt s).tabValid = s.tabValid := rfl
@[simp] theorem latch_st : (latch amp pol off cnt s).st = (if amp then .highHalf1 else .lowHalf1) := rfl
@[simp] theorem latch_clr : (latch amp pol off cnt s).clr = s.clr := rfl
@[simp] theorem latch_clrValid : (latch amp pol off cnt s).clrValid = s.clrValid := rfl
@[simp] theorem latch_amp : (latch amp pol off cnt s).amp = amp := rfl
@[simp] theorem latch_pol : (latch amp pol off cnt s).pol = pol := rfl
@[simp] theorem latch_off : (latch amp pol off cnt s).off = off := rfl
@[simp] theorem latch_x : (latch amp pol off cnt s).x = cnt := rfl
@[simp] theorem latch_y : (latch amp pol off cnt s).y = (halfLen s.clr amp pol off true (cnt == 1#22)) := rfl
@[simp] theorem latch_e : (latch amp pol off cnt s).e = 0#17 := rfl
@[simp] theorem latch_pins : (latch amp pol off cnt s).pins = s.pins := rfl
@[simp] theorem latch_fifo : (latch amp pol off cnt s).fifo = s.fifo := rfl
@[simp] theorem latch_ms : (latch amp pol off cnt s).ms = s.ms := rfl
@[simp] theorem latch_slot0 : (latch amp pol off cnt s).slot0 = s.slot0 := rfl
@[simp] theorem latch_slot1 : (latch amp pol off cnt s).slot1 = s.slot1 := rfl
@[simp] theorem latch_active : (latch amp pol off cnt s).active = s.active := rfl
@[simp] theorem latch_i : (latch amp pol off cnt s).i = s.i := rfl
@[simp] theorem latch_q : (latch amp pol off cnt s).q = s.q := rfl
@[simp] theorem latch_firstMinute : (latch amp pol off cnt s).firstMinute = s.firstMinute := rfl
@[simp] theorem latch_startOffset : (latch amp pol off cnt s).startOffset = s.startOffset := rfl
@[simp] theorem latch_bg : (latch amp pol off cnt s).bg = s.bg := rfl
@[simp] theorem latch_tasks : (latch amp pol off cnt s).tasks = s.tasks := rfl
@[simp] theorem latch_minuteGen : (latch amp pol off cnt s).minuteGen = s.minuteGen := rfl
@[simp] theorem latch_pushedAny : (latch amp pol off cnt s).pushedAny = s.pushedAny := rfl
@[simp] theorem latch_wasStarted : (latch amp pol off cnt s).wasStarted = s.wasStarted := rfl
@[simp] theorem latch_cntInputErr : (latch amp pol off cnt s).cntInputErr = s.cntInputErr := rfl
@[simp] theorem latch_cntUnderrun : (latch amp pol off cnt s).cntUnderrun = s.cntUnderrun := rfl
@[simp] theorem latch_cntOverrun : (latch amp pol off cnt s).cntOverrun = s.cntOverrun := rfl
@[simp] theorem latch_cntTimeSrc : (latch amp pol off cnt s).cntTimeSrc = s.cntTimeSrc := rfl
@[simp] theorem latch_timeBase : (latch amp pol off cnt s).timeBase = s.timeBase := rfl
@[simp] theorem latch_reports : (latch amp pol off cnt s).reports = s.reports := rfl
@[simp] theorem latch_edge : (latch amp pol off cnt s).edge = s.edge := rfl
@[simp] theorem latch_primed : (latch amp pol off cnt s).primed = s.primed := rfl
@[simp] theorem latch_free : (latch amp pol off cnt s).free = s.free := rfl
@[simp] theorem latch_agenda : (latch amp pol off cnt s).agenda = s.agenda := rfl
end

section
variable (s : State)

@[simp] theorem halfTick_par : (halfTick s).par = s.par := rfl
@[simp] theorem halfTick_lfsr : (halfTick s).lfsr = s.lfsr := rfl
@[simp] theorem halfTick_n : (halfTick s).n = s.n := rfl
@[simp] theorem halfTick_pat : (halfTick s).pat = s.pat := rfl
@[simp] theorem halfTick_tab : (halfTick s).tab = s.tab := rfl
@[simp] theorem halfTick_tabValid : (halfTick s).tabValid = s.tabValid := rfl
@[simp] theorem halfTick_st : (halfTick s).st = (if endsDescriptor s then .setupDecode else if endsHalf s then otherHalf s.st else s.st) := rfl
@[simp] theorem halfTick_clr : (halfTick s).clr = s.clr := rfl
@[simp] theorem halfTick_clrValid : (halfTick s).clrValid = s.clrValid := rfl
@[simp] theorem halfTick_amp : (halfTick s).amp = s.amp := rfl
@[simp] theorem halfTick_pol : (halfTick s).pol = s.pol := rfl
@[simp] theorem halfTick_off : (halfTick s).off = s.off := rfl
@[simp] theorem halfTick_x : (halfTick s).x = (if endsHalf s then s.x - 1#22 else s.x) := rfl
@[simp] theorem halfTick_y : (halfTick s).y = (if endsDescriptor s then 0#17 else if endsHalf s then halfLen s.clr s.amp s.pol s.off false (s.x - 1#22 == 1#22) else s.y - 1#17) := rfl
@[simp] theorem halfTick_e : (halfTick s).e = (if endsHalf s && !endsDescriptor s then 0#17 else s.e + 1#17) := rfl
@[simp] theorem halfTick_pins : (halfTick s).pins = (pinLevel s) := rfl
@[simp] theorem halfTick_fifo : (halfTick s).fifo = s.fifo := rfl
@[simp] theorem halfTick_ms : (halfTick s).ms = s.ms := rfl
@[simp] theorem halfTick_slot0 : (halfTick s).slot0 = s.slot0 := rfl
@[simp] theorem halfTick_slot1 : (halfTick s).slot1 = s.slot1 := rfl
@[simp] theorem halfTick_active : (halfTick s).active = s.active := rfl
@[simp] theorem halfTick_i : (halfTick s).i = s.i := rfl
@[simp] theorem halfTick_q : (halfTick s).q = s.q := rfl
@[simp] theorem halfTick_firstMinute : (halfTick s).firstMinute = s.firstMinute := rfl
@[simp] theorem halfTick_startOffset : (halfTick s).startOffset = s.startOffset := rfl
@[simp] theorem halfTick_bg : (halfTick s).bg = s.bg := rfl
@[simp] theorem halfTick_tasks : (halfTick s).tasks = s.tasks := rfl
@[simp] theorem halfTick_minuteGen : (halfTick s).minuteGen = s.minuteGen := rfl
@[simp] theorem halfTick_pushedAny : (halfTick s).pushedAny = s.pushedAny := rfl
@[simp] theorem halfTick_wasStarted : (halfTick s).wasStarted = s.wasStarted := rfl
@[simp] theorem halfTick_cntInputErr : (halfTick s).cntInputErr = s.cntInputErr := rfl
@[simp] theorem halfTick_cntUnderrun : (halfTick s).cntUnderrun = s.cntUnderrun := rfl
@[simp] theorem halfTick_cntOverrun : (halfTick s).cntOverrun = s.cntOverrun := rfl
@[simp] theorem halfTick_cntTimeSrc : (halfTick s).cntTimeSrc = s.cntTimeSrc := rfl
@[simp] theorem halfTick_timeBase : (halfTick s).timeBase = s.timeBase := rfl
@[simp] theorem halfTick_reports : (halfTick s).reports = s.reports := rfl
@[simp] theorem halfTick_edge : (halfTick s).edge = s.edge := rfl
@[simp] theorem halfTick_primed : (halfTick s).primed = s.primed := rfl
@[simp] theorem halfTick_free : (halfTick s).free = s.free := rfl
@[simp] theorem halfTick_agenda : (halfTick s).agenda = s.agenda := rfl
end

section
variable (s : State)

@[simp] theorem lfsrStep_par : (lfsrStep s).par = s.par := rfl
@[simp] theorem lfsrStep_lfsr : (lfsrStep s).lfsr = (lfsrNext s.lfsr) := rfl
@[simp] theorem lfsrStep_n : (lfsrStep s).n = (s.n + 1) := rfl
@[simp] theorem lfsrStep_pat : (lfsrStep s).pat = (setBit s.pat s.n (chipOf s.lfsr)) := rfl
@[simp] theorem lfsrStep_tab : (lfsrStep s).tab = s.tab := rfl
@[simp] theorem lfsrStep_tabValid : (lfsrStep s).tabValid = s.tabValid := rfl
@[simp] theorem lfsrStep_st : (lfsrStep s).st = s.st := rfl
@[simp] theorem lfsrStep_clr : (lfsrStep s).clr = s.clr := rfl
@[simp] theorem lfsrStep_clrValid : (lfsrStep s).clrValid = s.clrValid := rfl
@[simp] theorem lfsrStep_amp : (lfsrStep s).amp = s.amp := rfl
@[simp] theorem lfsrStep_pol : (lfsrStep s).pol = s.pol := rfl
@[simp] theorem lfsrStep_off : (lfsrStep s).off = s.off := rfl
@[simp] theorem lfsrStep_x : (lfsrStep s).x = s.x := rfl
@[simp] theorem lfsrStep_y : (lfsrStep s).y = s.y := rfl
@[simp] theorem lfsrStep_e : (lfsrStep s).e = s.e := rfl
@[simp] theorem lfsrStep_pins : (lfsrStep s).pins = s.pins := rfl
@[simp] theorem lfsrStep_fifo : (lfsrStep s).fifo = s.fifo := rfl
@[simp] theorem lfsrStep_ms : (lfsrStep s).ms = s.ms := rfl
@[simp] theorem lfsrStep_slot0 : (lfsrStep s).slot0 = s.slot0 := rfl
@[simp] theorem lfsrStep_slot1 : (lfsrStep s).slot1 = s.slot1 := rfl
@[simp] theorem lfsrStep_active : (lfsrStep s).active = s.active := rfl
@[simp] theorem lfsrStep_i : (lfsrStep s).i = s.i := rfl
@[simp] theorem lfsrStep_q : (lfsrStep s).q = s.q := rfl
@[simp] theorem lfsrStep_firstMinute : (lfsrStep s).firstMinute = s.firstMinute := rfl
@[simp] theorem lfsrStep_startOffset : (lfsrStep s).startOffset = s.startOffset := rfl
@[simp] theorem lfsrStep_bg : (lfsrStep s).bg = s.bg := rfl
@[simp] theorem lfsrStep_tasks : (lfsrStep s).tasks = s.tasks := rfl
@[simp] theorem lfsrStep_minuteGen : (lfsrStep s).minuteGen = s.minuteGen := rfl
@[simp] theorem lfsrStep_pushedAny : (lfsrStep s).pushedAny = s.pushedAny := rfl
@[simp] theorem lfsrStep_wasStarted : (lfsrStep s).wasStarted = s.wasStarted := rfl
@[simp] theorem lfsrStep_cntInputErr : (lfsrStep s).cntInputErr = s.cntInputErr := rfl
@[simp] theorem lfsrStep_cntUnderrun : (lfsrStep s).cntUnderrun = s.cntUnderrun := rfl
@[simp] theorem lfsrStep_cntOverrun : (lfsrStep s).cntOverrun = s.cntOverrun := rfl
@[simp] theorem lfsrStep_cntTimeSrc : (lfsrStep s).cntTimeSrc = s.cntTimeSrc := rfl
@[simp] theorem lfsrStep_timeBase : (lfsrStep s).timeBase = s.timeBase := rfl
@[simp] theorem lfsrStep_reports : (lfsrStep s).reports = s.reports := rfl
@[simp] theorem lfsrStep_edge : (lfsrStep s).edge = s.edge := rfl
@[simp] theorem lfsrStep_primed : (lfsrStep s).primed = s.primed := rfl
@[simp] theorem lfsrStep_free : (lfsrStep s).free = s.free := rfl
@[simp] theorem lfsrStep_agenda : (lfsrStep s).agenda = s.agenda := rfl
end

section
variable (s : State)

@[simp] theorem flipActive_par : (flipActive s).par = s.par := rfl
@[simp] theorem flipActive_lfsr : (flipActive s).lfsr = s.lfsr := rfl
@[simp] theorem flipActive_n : (flipActive s).n = s.n := rfl
@[simp] theorem flipActive_pat : (flipActive s).pat = s.pat := rfl
@[simp] theorem flipActive_tab : (flipActive s).tab = s.tab := rfl
@[simp] theorem flipActive_tabValid : (flipActive s).tabValid = s.tabValid := rfl
@[simp] theorem flipActive_st : (flipActive s).st = s.st := rfl
@[simp] theorem flipActive_clr : (flipActive s).clr = s.clr := rfl
@[simp] theorem flipActive_clrValid : (flipActive s).clrValid = s.clrValid := rfl
@[simp] theorem flipActive_amp : (flipActive s).amp = s.amp := rfl
@[simp] theorem flipActive_pol : (flipActive s).pol = s.pol := rfl
@[simp] theorem flipActive_off : (flipActive s).off = s.off := rfl
@[simp] theorem flipActive_x : (flipActive s).x = s.x := rfl
@[simp] theorem flipActive_y : (flipActive s).y = s.y := rfl
@[simp] theorem flipActive_e : (flipActive s).e = s.e := rfl
@[simp] theorem flipActive_pins : (flipActive s).pins = s.pins := rfl
@[simp] theorem flipActive_fifo : (flipActive s).fifo = s.fifo := rfl
@[simp] theorem flipActive_ms : (flipActive s).ms = s.ms := rfl
@[simp] theorem flipActive_slot0 : (flipActive s).slot0 = s.slot0 := rfl
@[simp] theorem flipActive_slot1 : (flipActive s).slot1 = s.slot1 := rfl
@[simp] theorem flipActive_active : (flipActive s).active = !s.active := rfl
@[simp] theorem flipActive_i : (flipActive s).i = s.i := rfl
@[simp] theorem flipActive_q : (flipActive s).q = s.q := rfl
@[simp] theorem flipActive_firstMinute : (flipActive s).firstMinute = s.firstMinute := rfl
@[simp] theorem flipActive_startOffset : (flipActive s).startOffset = s.startOffset := rfl
@[simp] theorem flipActive_bg : (flipActive s).bg = s.bg := rfl
@[simp] theorem flipActive_tasks : (flipActive s).tasks = s.tasks := rfl
@[simp] theorem flipActive_minuteGen : (flipActive s).minuteGen = s.minuteGen := rfl
@[simp] theorem flipActive_pushedAny : (flipActive s).pushedAny = s.pushedAny := rfl
@[simp] theorem flipActive_wasStarted : (flipActive s).wasStarted = s.wasStarted := rfl
@[simp] theorem flipActive_cntInputErr : (flipActive s).cntInputErr = s.cntInputErr := rfl
@[simp] theorem flipActive_cntUnderrun : (flipActive s).cntUnderrun = s.cntUnderrun := rfl
@[simp] theorem flipActive_cntOverrun : (flipActive s).cntOverrun = s.cntOverrun := rfl
@[simp] theorem flipActive_cntTimeSrc : (flipActive s).cntTimeSrc = s.cntTimeSrc := rfl
@[simp] theorem flipActive_timeBase : (flipActive s).timeBase = s.timeBase := rfl
@[simp] theorem flipActive_reports : (flipActive s).reports = s.reports := rfl
@[simp] theorem flipActive_edge : (flipActive s).edge = s.edge := rfl
@[simp] theorem flipActive_primed : (flipActive s).primed = s.primed := rfl
@[simp] theorem flipActive_free : (flipActive s).free = s.free := rfl
@[simp] theorem flipActive_agenda : (flipActive s).agenda = s.agenda := rfl
end

section
variable (s : State)

@[simp] theorem nextMinute_par : (nextMinute s).par = s.par := rfl
@[simp] theorem nextMinute_lfsr : (nextMinute s).lfsr = s.lfsr := rfl
@[simp] theorem nextMinute_n : (nextMinute s).n = s.n := rfl
@[simp] theorem nextMinute_pat : (nextMinute s).pat = s.pat := rfl
@[simp] theorem nextMinute_tab : (nextMinute s).tab = s.tab := rfl
@[simp] theorem nextMinute_tabValid : (nextMinute s).tabValid = s.tabValid := rfl
@[simp] theorem nextMinute_st : (nextMinute s).st = s.st := rfl
@[simp] theorem nextMinute_clr : (nextMinute s).clr = s.clr := rfl
@[simp] theorem nextMinute_clrValid : (nextMinute s).clrValid = s.clrValid := rfl
@[simp] theorem nextMinute_amp : (nextMinute s).amp = s.amp := rfl
@[simp] theorem nextMinute_pol : (nextMinute s).pol = s.pol := rfl
@[simp] theorem nextMinute_off : (nextMinute s).off = s.off := rfl
@[simp] theorem nextMinute_x : (nextMinute s).x = s.x := rfl
@[simp] theorem nextMinute_y : (nextMinute s).y = s.y := rfl
@[simp] theorem nextMinute_e : (nextMinute s).e = s.e := rfl
@[simp] theorem nextMinute_pins : (nextMinute s).pins = s.pins := rfl
@[simp] theorem nextMinute_fifo : (nextMinute s).fifo = s.fifo := rfl
@[simp] theorem nextMinute_ms : (nextMinute s).ms = .streamingCurrent := rfl
@[simp] theorem nextMinute_slot0 : (nextMinute s).slot0 = s.slot0 := rfl
@[simp] theorem nextMinute_slot1 : (nextMinute s).slot1 = s.slot1 := rfl
@[simp] theorem nextMinute_active : (nextMinute s).active = s.active := rfl
@[simp] theorem nextMinute_i : (nextMinute s).i = 0 := rfl
@[simp] theorem nextMinute_q : (nextMinute s).q = 0 := rfl
@[simp] theorem nextMinute_firstMinute : (nextMinute s).firstMinute = false := rfl
@[simp] theorem nextMinute_startOffset : (nextMinute s).startOffset = s.startOffset := rfl
@[simp] theorem nextMinute_bg : (nextMinute s).bg = .bgNone := rfl
@[simp] theorem nextMinute_tasks : (nextMinute s).tasks = s.tasks := rfl
@[simp] theorem nextMinute_minuteGen : (nextMinute s).minuteGen = (s.minuteGen + 1) := rfl
@[simp] theorem nextMinute_pushedAny : (nextMinute s).pushedAny = s.pushedAny := rfl
@[simp] theorem nextMinute_wasStarted : (nextMinute s).wasStarted = s.wasStarted := rfl
@[simp] theorem nextMinute_cntInputErr : (nextMinute s).cntInputErr = s.cntInputErr := rfl
@[simp] theorem nextMinute_cntUnderrun : (nextMinute s).cntUnderrun = s.cntUnderrun := rfl
@[simp] theorem nextMinute_cntOverrun : (nextMinute s).cntOverrun = s.cntOverrun := rfl
@[simp] theorem nextMinute_cntTimeSrc : (nextMinute s).cntTimeSrc = s.cntTimeSrc := rfl
@[simp] theorem nextMinute_timeBase : (nextMinute s).timeBase = s.timeBase := rfl
@[simp] theorem nextMinute_reports : (nextMinute s).reports = s.reports := rfl
@[simp] theorem nextMinute_edge : (nextMinute s).edge = s.edge := rfl
@[simp] theorem nextMinute_primed : (nextMinute s).primed = s.primed := rfl
@[simp] theorem nextMinute_free : (nextMinute s).free = s.free := rfl
@[simp] theorem nextMinute_agenda : (nextMinute s).agenda = s.agenda := rfl
end

section
variable (t : TimeTuple) (d : Bool) (s : State)

@[simp] theorem startTask_par : (startTask t d s).par = s.par := rfl
@[simp] theorem startTask_lfsr : (startTask t d s).lfsr = s.lfsr := rfl
@[simp] theorem startTask_n : (startTask t d s).n = s.n := rfl
@[simp] theorem startTask_pat : (startTask t d s).pat = s.pat := rfl
@[simp] theorem startTask_tab : (startTask t d s).tab = s.tab := rfl
@[simp] theorem startTask_tabValid : (startTask t d s).tabValid = s.tabValid := rfl
@[simp] theorem startTask_st : (startTask t d s).st = s.st := rfl
@[simp] theorem startTask_clr : (startTask t d s).clr = s.clr := rfl
@[simp] theorem startTask_clrValid : (startTask t d s).clrValid = s.clrValid := rfl
@[simp] theorem startTask_amp : (startTask t d s).amp = s.amp := rfl
@[simp] theorem startTask_pol : (startTask t d s).pol = s.pol := rfl
@[simp] theorem startTask_off : (startTask t d s).off = s.off := rfl
@[simp] theorem startTask_x : (startTask t d s).x = s.x := rfl
@[simp] theorem startTask_y : (startTask t d s).y = s.y := rfl
@[simp] theorem startTask_e : (startTask t d s).e = s.e := rfl
@[simp] theorem startTask_pins : (startTask t d s).pins = s.pins := rfl
@[simp] theorem startTask_fifo : (startTask t d s).fifo = s.fifo := rfl
@[simp] theorem startTask_ms : (startTask t d s).ms = s.ms := rfl
@[simp] theorem startTask_slot0 : (startTask t d s).slot0 = s.slot0 := rfl
@[simp] theorem startTask_slot1 : (startTask t d s).slot1 = s.slot1 := rfl
@[simp] theorem startTask_active : (startTask t d s).active = s.active := rfl
@[simp] theorem startTask_i : (startTask t d s).i = s.i := rfl
@[simp] theorem startTask_q : (startTask t d s).q = s.q := rfl
@[simp] theorem startTask_firstMinute : (startTask t d s).firstMinute = s.firstMinute := rfl
@[simp] theorem startTask_startOffset : (startTask t d s).startOffset = s.startOffset := rfl
@[simp] theorem startTask_bg : (startTask t d s).bg = .bgRunning := rfl
@[simp] theorem startTask_tasks : (startTask t d s).tasks = (s.tasks ++ [⟨t, d, !s.active, s.minuteGen⟩]) := rfl
@[simp] theorem startTask_minuteGen : (startTask t d s).minuteGen = s.minuteGen := rfl
@[simp] theorem startTask_pushedAny : (startTask t d s).pushedAny = s.pushedAny := rfl
@[simp] theorem startTask_wasStarted : (startTask t d s).wasStarted = s.wasStarted := rfl
@[simp] theorem startTask_cntInputErr : (startTask t d s).cntInputErr = s.cntInputErr := rfl
@[simp] theorem startTask_cntUnderrun : (startTask t d s).cntUnderrun = s.cntUnderrun := rfl
@[simp] theorem startTask_cntOverrun : (startTask t d s).cntOverrun = s.cntOverrun := rfl
@[simp] theorem startTask_cntTimeSrc : (startTask t d s).cntTimeSrc = s.cntTimeSrc := rfl
@[simp] theorem startTask_timeBase : (startTask t d s).timeBase = s.timeBase := rfl
@[simp] theorem startTask_reports : (startTask t d s).reports = s.reports := rfl
@[simp] theorem startTask_edge : (startTask t d s).edge = s.edge := rfl
@[simp] theorem startTask_primed : (startTask t d s).primed = s.primed := rfl
@[simp] theorem startTask_free : (startTask t d s).free = s.free := rfl
@[simp] theorem startTask_agenda : (startTask t d s).agenda = s.agenda := rfl
end

section
variable (t : TimeTuple) (d : Bool) (g : Nat) (s : State)

@[simp] theorem setTimeBase_par : (setTimeBase t d g s).par = s.par := rfl
@[simp] theorem setTimeBase_lfsr : (setTimeBase t d g s).lfsr = s.lfsr := rfl
@[simp] theorem setTimeBase_n : (setTimeBase t d g s).n = s.n := rfl
@[simp] theorem setTimeBase_pat : (setTimeBase t d g s).pat = s.pat := rfl
@[simp] theorem setTimeBase_tab : (setTimeBase t d g s).tab = s.tab := rfl
@[simp] theorem setTimeBase_tabValid : (setTimeBase t d g s).tabValid = s.tabValid := rfl
@[simp] theorem setTimeBase_st : (setTimeBase t d g s).st = s.st := rfl
@[simp] theorem setTimeBase_clr : (setTimeBase t d g s).clr = s.clr := rfl
@[simp] theorem setTimeBase_clrValid : (setTimeBase t d g s).clrValid = s.clrValid := rfl
@[simp] theorem setTimeBase_amp : (setTimeBase t d g s).amp = s.amp := rfl
@[simp] theorem setTimeBase_pol : (setTimeBase t d g s).pol = s.pol := rfl
@[simp] theorem setTimeBase_off : (setTimeBase t d g s).off = s.off := rfl
@[simp] theorem setTimeBase_x : (setTimeBase t d g s).x = s.x := rfl
@[simp] theorem setTimeBase_y : (setTimeBase t d g s).y = s.y := rfl
@[simp] theorem setTimeBase_e : (setTimeBase t d g s).e = s.e := rfl
@[simp] theorem setTimeBase_pins : (setTimeBase t d g s).pins = s.pins := rfl
@[simp] theorem setTimeBase_fifo : (setTimeBase t d g s).fifo = s.fifo := rfl
@[simp] theorem setTimeBase_ms : (setTimeBase t d g s).ms = s.ms := rfl
@[simp] theorem setTimeBase_slot0 : (setTimeBase t d g s).slot0 = s.slot0 := rfl
@[simp] theorem setTimeBase_slot1 : (setTimeBase t d g s).slot1 = s.slot1 := rfl
@[simp] theorem setTimeBase_active : (setTimeBase t d g s).active = s.active := rfl
@[simp] theorem setTimeBase_i : (setTimeBase t d g s).i = s.i := rfl
@[simp] theorem setTimeBase_q : (setTimeBase t d g s).q = s.q := rfl
@[simp] theorem setTimeBase_firstMinute : (setTimeBase t d g s).firstMinute = s.firstMinute := rfl
@[simp] theorem setTimeBase_startOffset : (setTimeBase t d g s).startOffset = s.startOffset := rfl
@[simp] theorem setTimeBase_bg : (setTimeBase t d g s).bg = s.bg := rfl
@[simp] theorem setTimeBase_tasks : (setTimeBase t d g s).tasks = s.tasks := rfl
@[simp] theorem setTimeBase_minuteGen : (setTimeBase t d g s).minuteGen = s.minuteGen := rfl
@[simp] theorem setTimeBase_pushedAny : (setTimeBase t d g s).pushedAny = s.pushedAny := rfl
@[simp] theorem setTimeBase_wasStarted : (setTimeBase t d g s).wasStarted = s.wasStarted := rfl
@[simp] theorem setTimeBase_cntInputErr : (setTimeBase t d g s).cntInputErr = s.cntInputErr := rfl
@[simp] theorem setTimeBase_cntUnderrun : (setTimeBase t d g s).cntUnderrun = s.cntUnderrun := rfl
@[simp] theorem setTimeBase_cntOverrun : (setTimeBase t d g s).cntOverrun = s.cntOverrun := rfl
@[simp] theorem setTimeBase_cntTimeSrc : (setTimeBase t d g s).cntTimeSrc = s.cntTimeSrc := rfl
@[simp] theorem setTimeBase_timeBase : (setTimeBase t d g s).timeBase = some ⟨t, d, g⟩ := rfl
@[simp] theorem setTimeBase_reports : (setTimeBase t d g s).reports = s.reports := rfl
@[simp] theorem setTimeBase_edge : (setTimeBase t d g s).edge = s.edge := rfl
@[simp] theorem setTimeBase_primed : (setTimeBase t d g s).primed = s.primed := rfl
@[simp] theorem setTimeBase_free : (setTimeBase t d g s).free = s.free := rfl
@[simp] theorem setTimeBase_agenda : (setTimeBase t d g s).agenda = s.agenda := rfl
end

section
variable (s : State)

@[simp] theorem dropMove_par : (dropMove s).par = s.par := rfl
@[simp] theorem dropMove_lfsr : (dropMove s).lfsr = s.lfsr := rfl
@[simp] theorem dropMove_n : (dropMove s).n = s.n := rfl
@[simp] theorem dropMove_pat : (dropMove s).pat = s.pat := rfl
@[simp] theorem dropMove_tab : (dropMove s).tab = s.tab := rfl
@[simp] theorem dropMove_tabValid : (dropMove s).tabValid = s.tabValid := rfl
@[simp] theorem dropMove_st : (dropMove s).st = s.st := rfl
@[simp] theorem dropMove_clr : (dropMove s).clr = s.clr := rfl
@[simp] theorem dropMove_clrValid : (dropMove s).clrValid = s.clrValid := rfl
@[simp] theorem dropMove_amp : (dropMove s).amp = s.amp := rfl
@[simp] theorem dropMove_pol : (dropMove s).pol = s.pol := rfl
@[simp] theorem dropMove_off : (dropMove s).off = s.off := rfl
@[simp] theorem dropMove_x : (dropMove s).x = s.x := rfl
@[simp] theorem dropMove_y : (dropMove s).y = s.y := rfl
@[simp] theorem dropMove_e : (dropMove s).e = s.e := rfl
@[simp] theorem dropMove_pins : (dropMove s).pins = s.pins := rfl
@[simp] theorem dropMove_fifo : (dropMove s).fifo = s.fifo := rfl
@[simp] theorem dropMove_ms : (dropMove s).ms = s.ms := rfl
@[simp] theorem dropMove_slot0 : (dropMove s).slot0 = s.slot0 := rfl
@[simp] theorem dropMove_slot1 : (dropMove s).slot1 = s.slot1 := rfl
@[simp] theorem dropMove_active : (dropMove s).active = s.active := rfl
@[simp] theorem dropMove_i : (dropMove s).i = s.i := rfl
@[simp] theorem dropMove_q : (dropMove s).q = s.q := rfl
@[simp] theorem dropMove_firstMinute : (dropMove s).firstMinute = s.firstMinute := rfl
@[simp] theorem dropMove_startOffset : (dropMove s).startOffset = s.startOffset := rfl
@[simp] theorem dropMove_bg : (dropMove s).bg = s.bg := rfl
@[simp] theorem dropMove_tasks : (dropMove s).tasks = s.tasks := rfl
@[simp] theorem dropMove_minuteGen : (dropMove s).minuteGen = s.minuteGen := rfl
@[simp] theorem dropMove_pushedAny : (dropMove s).pushedAny = s.pushedAny := rfl
@[simp] theorem dropMove_wasStarted : (dropMove s).wasStarted = s.wasStarted := rfl
@[simp] theorem dropMove_cntInputErr : (dropMove s).cntInputErr = s.cntInputErr := rfl
@[simp] theorem dropMove_cntUnderrun : (dropMove s).cntUnderrun = s.cntUnderrun := rfl
@[simp] theorem dropMove_cntOverrun : (dropMove s).cntOverrun = s.cntOverrun := rfl
@[simp] theorem dropMove_cntTimeSrc : (dropMove s).cntTimeSrc = s.cntTimeSrc := rfl
@[simp] theorem dropMove_timeBase : (dropMove s).timeBase = s.timeBase := rfl
@[simp] theorem dropMove_reports : (dropMove s).reports = s.reports := rfl
@[simp] theorem dropMove_edge : (dropMove s).edge = s.edge := rfl
@[simp] theorem dropMove_primed : (dropMove s).primed = s.primed := rfl
@[simp] theorem dropMove_free : (dropMove s).free = s.free := rfl
@[simp] theorem dropMove_agenda : (dropMove s).agenda = s.agenda.tail := rfl
end

end Sys2Proof.Machine
end

