-- ==== Sys2Proof/Laws/Machine.lean ====
section
/-! SUPPORT. One lemma per operation of the machine that says everything it can do, which later proofs cite
instead of unfolding the operation; and the equation of `exec` over the fields of a descriptor. -/

namespace Sys2Proof.Machine

/-! ## The sequencer -/

/-- Every descriptor executes as the dequeue of its own fields (R149). -/
theorem exec_eq (i : Instr) (s : State) : exec i s = beginDescriptor i.amp i.pol i.off i.cnt s := by
  cases i <;> rfl

/-- Executing what a word decodes to is the dequeue of the word's fields (R149). -/
theorem exec_decodeWord (w : Word) (s : State) :
    exec (decodeWord w) s = beginDescriptor (ampOf w) (polOf w) (offOf w) (cntOf w) s := by
  unfold decodeWord
  split
  · rename_i ha
    rw [ha]
    unfold decodeHigh
    split
    · rename_i hc
      rw [hc]
      split
      · rename_i hp
        rw [hp]
        rfl
      · rename_i hp
        rw [Bool.not_eq_true] at hp
        rw [hp]
        rfl
    · split
      · rename_i h
        rw [h.1, h.2.1, h.2.2]
        rfl
      · split
        · rename_i h
          rw [h.1, h.2.1, h.2.2]
          rfl
        · rfl
  · rename_i ha
    rw [Bool.not_eq_true] at ha
    rw [ha]
    unfold decodeLow
    split
    · rename_i h
      rw [h.1, h.2.1, h.2.2]
      rfl
    · split
      · rename_i h
        rw [h.1, h.2.1, h.2.2]
        rfl
      · rfl

/-- When a dequeue answers a next state, and which (R154, R149). -/
theorem beginDescriptor_next {amp pol : Bool} {off : BitVec 8} {cnt : BitVec 22} {s t : State} :
    beginDescriptor amp pol off cnt s = .next t ↔
      cnt ≠ 0#22 ∧ offsetReserved s.clr amp cnt off = false ∧ t = halfTick (latch amp pol off cnt s) := by
  unfold beginDescriptor
  split
  · simp_all
  · rename_i hc
    split
    · simp_all
    · rename_i ho
      rw [Bool.not_eq_true] at ho
      exact ⟨fun h => ⟨hc, ho, (Host.Outcome.next.inj h).symm⟩, fun h => by rw [h.2.2]⟩

/-- An accepted dequeue answers its next state (R149). -/
theorem beginDescriptor_accepted {amp : Bool} (pol : Bool) {off : BitVec 8} {cnt : BitVec 22} {s : State}
    (hc : cnt ≠ 0#22) (ho : offsetReserved s.clr amp cnt off = false) :
    beginDescriptor amp pol off cnt s = .next (halfTick (latch amp pol off cnt s)) :=
  beginDescriptor_next.2 ⟨hc, ho, rfl⟩

/-- A dequeue never answers a fault (R154: reserved words are refused). -/
theorem beginDescriptor_not_fault (amp pol : Bool) (off : BitVec 8) (cnt : BitVec 22) (s : State)
    (f : Fault) : beginDescriptor amp pol off cnt s ≠ .fault f := by
  unfold beginDescriptor
  split
  · simp
  · split <;> simp

/-- Everything a tick can do (R148, R149). -/
theorem tick_cases {s t : State} (h : tickWith exec s = .next t) :
    ((s.st = .stopped ∨ (s.st = .setupDecode ∧ s.fifo = [])) ∧ t = s)
    ∨ (∃ w rest, s.st = .setupDecode ∧ s.fifo = w :: rest
        ∧ cntOf w ≠ 0#22 ∧ offsetReserved s.clr (ampOf w) (cntOf w) (offOf w) = false
        ∧ t = halfTick (latch (ampOf w) (polOf w) (offOf w) (cntOf w) (fifoPop s)))
    ∨ (isHalf s.st = true ∧ t = halfTick s) := by
  unfold tickWith at h
  split at h
  · simp_all
  · split at h
    · simp_all
    · rename_i hs _ w rest hf
      rw [exec_decodeWord, beginDescriptor_next] at h
      exact .inr (.inl ⟨w, rest, hs, hf, h⟩)
  all_goals
    rename_i hs
    cases h
    exact .inr (.inr ⟨by simp [isHalf, hs], rfl⟩)

/-- A tick in a half state (R149). -/
theorem tick_half (run : Instr → State → Result) {s : State} (h : isHalf s.st = true) :
    tickWith run s = .next (halfTick s) := by
  unfold tickWith
  cases hs : s.st <;> simp_all [isHalf]

/-- A tick that dequeues (R149). -/
theorem tick_dequeue (run : Instr → State → Result) {s : State} {w : Word} {rest : List Word}
    (hs : s.st = .setupDecode) (hf : s.fifo = w :: rest) :
    tickWith run s = run (decodeWord w) (fifoPop s) := by
  simp [tickWith, hs, hf]

/-- Everything a permitted `START` does (R145). -/
theorem startSequencer_cases (s : State) :
    (s.st = .stopped ∧ startSequencer s = { s with st := .setupDecode, pushedAny := false, wasStarted := true })
    ∨ (s.st ≠ .stopped ∧ startSequencer s = s) := by
  by_cases h : s.st = .stopped
  · exact .inl ⟨h, by simp [startSequencer, isRunning, h]⟩
  · exact .inr ⟨h, by simp [startSequencer, isRunning, h]⟩

/-- Everything `PUSH` can do (R143). -/
theorem doPush_cases {w : Word} {s t : State} (h : doPush w s = .next t) :
    (isFull s = true ∧ t = s) ∨ (isFull s = false ∧ t = pushWord w s) := by
  unfold doPush at h
  split at h <;> simp_all

/-- Everything `PRELOAD` can do (R144). -/
theorem doPreload_cases {v : BitVec 16} {s t : State} (h : doPreload v s = .next t) :
    s.st = .stopped ∧ t = { s with clr := v, clrValid := true } := by
  unfold doPreload at h
  split at h
  · cases h
  · rename_i hr
    cases h
    exact ⟨by simpa [isRunning] using hr, rfl⟩

/-- Everything `START` can do (R145). -/
theorem doStart_cases {s t : State} (h : doStart s = .next t) :
    s.clrValid = true ∧ t = startSequencer s := by
  unfold doStart at h
  split at h <;> simp_all

/-- Everything `STOP` does (R146). -/
theorem doStop_cases {s t : State} (h : doStop s = .next t) :
    t = { s with st := .stopped, pins := pinsZ, fifo := [], amp := t.amp, pol := t.pol, off := t.off,
                 x := t.x, y := t.y, e := t.e, free := t.free } := by
  cases h
  rfl

/-! ## Boot -/

/-- How far `k` steps of the generator go. -/
theorem lfsrSteps_n (k : Nat) (s : State) : (lfsrSteps k s).n = s.n + k := by
  induction k generalizing s with
  | zero => rfl
  | succ k ih =>
    rw [lfsrSteps, ih (lfsrStep s), lfsrStep_n]
    omega

/-- What `k` steps of the generator leave alone. -/
theorem lfsrSteps_eq (k : Nat) (s : State) :
    lfsrSteps k s = { s with lfsr := (lfsrSteps k s).lfsr, n := s.n + k, pat := (lfsrSteps k s).pat } := by
  induction k generalizing s with
  | zero => rfl
  | succ k ih =>
    rw [lfsrSteps, ih (lfsrStep s)]
    simp [lfsrStep]
    omega

/-- The frame of `k` steps of the generator. -/
theorem lfsrSteps_frame (k : Nat) (s : State) :
    lfsrSteps k s = { s with lfsr := (lfsrSteps k s).lfsr, n := (lfsrSteps k s).n, pat := (lfsrSteps k s).pat } := by
  rw [lfsrSteps_n]
  exact lfsrSteps_eq k s

/-- Everything `LFSR.STEP` can do (R111). -/
theorem doLfsrStep_cases {s t : State} (h : doLfsrStep s = .next t) :
    (s.n < 512 ∧ t = lfsrStep s) ∨ (512 ≤ s.n ∧ t = s) := by
  unfold doLfsrStep at h
  cases h
  by_cases hn : s.n < Config.chipCount
  · exact .inl ⟨hn, by simp [hn]⟩
  · exact .inr ⟨by simpa [Config.chipCount] using hn, by simp [hn]⟩

/-- Everything `LFSR.GEN` can do (R112). -/
theorem doLfsrGen_cases {s t : State} (h : doLfsrGen s = .next t) :
    (s.n = 0 ∧ s.lfsr = 0#9 ∧ t = lfsrSteps 512 s) ∨ (¬(s.n = 0 ∧ s.lfsr = 0#9) ∧ t = s) := by
  unfold doLfsrGen at h
  cases h
  by_cases hn : s.n = 0 ∧ s.lfsr = 0#9
  · exact .inl ⟨hn.1, hn.2, by rw [if_pos hn]; rfl⟩
  · exact .inr ⟨hn, by rw [if_neg hn]⟩

/-- Everything `TAB.BUILD` can do (R127). -/
theorem doTabBuild_cases {s t : State} (h : doTabBuild s = .next t) :
    (s.tabValid = true ∧ t = s)
    ∨ (s.tabValid = false ∧ s.n = 512 ∧ t = { s with tab := tableWords s, tabValid := true }) := by
  unfold doTabBuild at h
  split at h
  · simp_all
  · split at h
    · simp_all [patDone, Config.chipCount]
    · cases h

/-- Everything the report of an `ENC` can do (R201). -/
theorem reportEnc_cases (yearMax : Nat) (t : TimeTuple) (d : Bool) (s : State) :
    (∃ v, enc yearMax t d = .ok v ∧ reportEnc t (enc yearMax t d) s = s)
    ∨ (enc yearMax t d = .error .protocolInputError
        ∧ reportEnc t (enc yearMax t d) s = raiseError .protocolInputError (.tuple t) s) := by
  unfold enc
  split
  · exact .inl ⟨_, rfl, rfl⟩
  · exact .inr ⟨rfl, rfl⟩

/-- Everything `PRIME` can do (R233). -/
theorem doPrime_cases {r : TsAnswer} {s t : State} (h : doPrime r s = .next t) :
    (primeEnabled r s = false ∧ t = s)
    ∨ (s.ms = .idle ∧ s.primed = false ∧ ∃ tt d, r.reading = some (tt, d)
        ∧ ((∃ v, enc s.par.yearMax tt d = .ok v
              ∧ t = setSlot s.active v { setTimeBase tt d 0 s with primed := true })
          ∨ (enc s.par.yearMax tt d = .error .protocolInputError
              ∧ t = raiseError .protocolInputError (.tuple tt) { setTimeBase tt d 0 s with primed := true }))) := by
  unfold doPrime at h
  split at h
  · rename_i he
    simp only [primeEnabled, Bool.and_eq_true, beq_iff_eq, Bool.not_eq_true'] at he
    split at h
    · cases h
    · rename_i tt d hr
      injection h with h
      refine .inr ⟨he.1.1, he.1.2, tt, d, hr, ?_⟩
      obtain ⟨v, hv, hs⟩ | ⟨hv, hs⟩ := reportEnc_cases s.par.yearMax tt d { setTimeBase tt d 0 s with primed := true }
      · exact .inl ⟨v, hv, by rw [← h, hs, hv]; rfl⟩
      · exact .inr ⟨hv, by rw [← h, hs, hv]; rfl⟩
  · simp_all

/-! ## The streaming context -/

/-- Everything `ACTIVATE` can do (R171). -/
theorem doActivate_cases {second : Nat} {s t : State} (h : doActivate second s = .next t) :
    (activateEnabled s = false ∧ t = s)
    ∨ (s.ms = .idle ∧ (slotAt s s.active).isSome = true ∧ s.tabValid = true ∧ s.clrValid = true
        ∧ s.edge = true ∧ second < 60
        ∧ t = { s with
            startOffset := second, i := second, q := 0, ms := .streamingCurrent, edge := false,
            st := if s.st = .stopped then .setupDecode else s.st,
            pushedAny := if s.st = .stopped then false else s.pushedAny,
            wasStarted := if s.st = .stopped then true else s.wasStarted }) := by
  unfold doActivate at h
  split at h
  · rename_i he
    simp only [activateEnabled, Bool.and_eq_true, beq_iff_eq] at he
    split at h
    · cases h
    · rename_i hsec
      injection h with h
      refine .inr ⟨he.1.1.1.1, he.1.1.1.2, he.1.1.2, he.1.2, he.2, by simpa [Config.vectorLen] using hsec, ?_⟩
      rw [← h]
      by_cases hst : s.st = .stopped <;> simp [startSequencer, isRunning, hst]
  · simp_all

/-- What the sample of `empty` can do (R180). -/
theorem sampleEmpty_cases (s : State) :
    (s.pushedAny = true ∧ s.fifo = [] ∧ sampleEmpty s = raiseError .queueUnderrun (.indices s.i s.q) s)
    ∨ (¬(s.pushedAny = true ∧ s.fifo = []) ∧ sampleEmpty s = s) := by
  unfold sampleEmpty
  by_cases h : s.pushedAny = true ∧ s.fifo = []
  · exact .inl ⟨h.1, h.2, by simp [isEmpty, h.1, h.2]⟩
  · refine .inr ⟨h, ?_⟩
    rw [if_neg]
    simpa [isEmpty, List.length_eq_zero_iff] using h

/-- The frame of the sample of `empty` (R202). -/
theorem sampleEmpty_frame (s : State) :
    sampleEmpty s = { s with cntUnderrun := (sampleEmpty s).cntUnderrun, reports := (sampleEmpty s).reports }
    ∧ s.cntUnderrun ≤ (sampleEmpty s).cntUnderrun := by
  obtain ⟨-, -, h⟩ | ⟨-, h⟩ := sampleEmpty_cases s <;> rw [h]
  · simp [raiseError, bump]
  · exact ⟨rfl, Nat.le_refl _⟩

/-- The length of a second's words (R128). -/
theorem secondWords_length (s : State) (sym : Symbol) (i : Nat) :
    (secondWords s sym i).length = secondLen sym := by
  cases sym <;> simp [secondWords, amplitudeWords, pmWords, Config.chipCount, secondLen]

/-- When `LOOKUP` answers, and what (R128). -/
theorem lookup_ok {s : State} {sym : Symbol} {i : Nat} {ws : List Word} :
    lookup s sym i = .ok ws ↔
      s.tabValid = true ∧ i < 60 ∧ sym ≠ .reserved3 ∧ ws = secondWords s sym i := by
  unfold lookup
  split
  · simp_all
  · split
    · simp_all [Config.vectorLen]
    · rename_i ht hi
      split
      · simp_all
      · rename_i hs
        refine ⟨fun h => ⟨by simpa using ht, by simpa [Config.vectorLen] using hi, hs, ?_⟩, fun h => by rw [h.2.2.2]⟩
        exact (Except.ok.inj h).symm

/-- Everything `PUSHNEXT` can do (R172). -/
theorem doPushNext_cases {s t : State} (h : doPushNext s = .next t) :
    (pushNextEnabled s = false ∧ t = s)
    ∨ (s.ms = .streamingCurrent ∧ isFull s = false
        ∧ ∃ v sym w, slotAt s s.active = some v ∧ v[s.i]? = some sym
          ∧ lookup s sym s.i = .ok (secondWords s sym s.i) ∧ (secondWords s sym s.i)[s.q]? = some w
          ∧ t = advanceIndices (secondLen sym) (streamWord w (sampleEmpty s))) := by
  unfold doPushNext at h
  split at h
  · rename_i he
    simp only [pushNextEnabled, Bool.and_eq_true, beq_iff_eq, Bool.not_eq_true'] at he
    split at h
    · cases h
    · rename_i seq hseq
      split at h
      · cases h
      · rename_i w hw
        injection h with h
        unfold currentSecond at hseq
        split at hseq
        · cases hseq
        · rename_i v hv
          split at hseq
          · cases hseq
          · rename_i sym hsym
            obtain ⟨-, -, -, rfl⟩ := lookup_ok.1 hseq
            exact .inr ⟨he.1, he.2, v, sym, w, hv, hsym, hseq, hw, by rw [← h, secondWords_length]⟩
  · simp_all

/-- When `PUSHNEXT` pushes (R172). -/
theorem doPushNext_pushes {s : State} {v : TimecodeVector} {sym : Symbol} {seq : List Word} {w : Word}
    (hm : s.ms = .streamingCurrent) (hf : isFull s = false) (hv : slotAt s s.active = some v)
    (hs : v[s.i]? = some sym) (hl : lookup s sym s.i = .ok seq) (hw : seq[s.q]? = some w) :
    doPushNext s = .next (advanceIndices seq.length (streamWord w (sampleEmpty s))) := by
  simp [doPushNext, pushNextEnabled, currentSecond, hm, hf, hv, hs, hl, hw]

/-- Everything the index advance can do (R172). -/
theorem advanceIndices_cases (len : Nat) (s : State) :
    (s.q + 1 ≠ len ∧ advanceIndices len s = { s with q := s.q + 1 })
    ∨ (s.q + 1 = len ∧ s.i ≠ 59 ∧ advanceIndices len s = { s with q := 0, i := s.i + 1 })
    ∨ (s.q + 1 = len ∧ s.i = 59 ∧ advanceIndices len s = { s with q := 0, ms := .swapping }) := by
  unfold advanceIndices
  by_cases h1 : s.q + 1 = len
  · by_cases h2 : s.i = 59
    · exact .inr (.inr ⟨h1, h2, by rw [if_pos h1, if_pos h2]⟩)
    · exact .inr (.inl ⟨h1, h2, by rw [if_pos h1, if_neg h2]⟩)
  · exact .inl ⟨h1, by rw [if_neg h1]⟩

/-- The frame of the index advance (R172). -/
theorem advanceIndices_frame (len : Nat) (s : State) :
    advanceIndices len s = { s with q := (advanceIndices len s).q, i := (advanceIndices len s).i,
                                    ms := (advanceIndices len s).ms } := by
  obtain ⟨-, h⟩ | ⟨-, -, h⟩ | ⟨-, -, h⟩ := advanceIndices_cases len s <;> rw [h]

/-- Everything an overrun can do (R174, R203). -/
theorem swapOverrun_cases {s t : State} (h : swapOverrun s = .next t) :
    (slotAt s (!s.active)).isSome = true
      ∧ t = nextMinute (flipActive (raiseError .scheduleOverrun (.generation s.minuteGen) s)) := by
  unfold swapOverrun at h
  split at h
  · cases h
  · rename_i hn
    injection h with h
    exact ⟨by cases hs : slotAt s (!s.active) <;> simp_all, h.symm⟩

/-- Everything `SWAP` can do (R174). -/
theorem doSwap_cases {s t : State} (h : doSwap s = .next t) :
    (s.ms ≠ .swapping ∧ t = s)
    ∨ (s.ms = .swapping ∧ s.bg = .bgOk ∧ t = nextMinute (flipActive s))
    ∨ (s.ms = .swapping ∧ s.bg = .bgInvalid ∧ t = nextMinute s)
    ∨ (s.ms = .swapping ∧ (s.bg = .bgRunning ∨ s.bg = .bgNone)
        ∧ (slotAt s (!s.active)).isSome = true
        ∧ t = nextMinute (flipActive (raiseError .scheduleOverrun (.generation s.minuteGen) s))) := by
  unfold doSwap at h
  split at h
  · rename_i hm
    split at h
    · rename_i hb
      injection h with h
      exact .inr (.inl ⟨hm, hb, h.symm⟩)
    · rename_i hb
      injection h with h
      exact .inr (.inr (.inl ⟨hm, hb, h.symm⟩))
    · rename_i hb
      exact .inr (.inr (.inr ⟨hm, .inl hb, swapOverrun_cases h⟩))
    · rename_i hb
      exact .inr (.inr (.inr ⟨hm, .inr hb, swapOverrun_cases h⟩))
  · simp_all

/-! ## The background context -/

/-- Everything `BG.START` can do (R175, R181). -/
theorem doBgStart_cases {r : TsAnswer} {s t : State} (h : doBgStart r s = .next t) :
    (bgStartEnabled r s = false ∧ t = s)
    ∨ (s.ms = .streamingCurrent ∧ s.bg = .bgNone
        ∧ ((∃ tt d, r.reading = some (tt, d) ∧ t = startTask tt d (setTimeBase tt d s.minuteGen s))
          ∨ (∃ b, r.reading = none ∧ s.timeBase = some b
              ∧ t = startTask (freeRun b s.minuteGen).1 (freeRun b s.minuteGen).2
                  (raiseError .timeSourceUnavailable .nothing s)))) := by
  unfold doBgStart at h
  split at h
  · rename_i he
    simp only [bgStartEnabled, Bool.and_eq_true, beq_iff_eq] at he
    split at h
    · rename_i tt d hr
      injection h with h
      exact .inr ⟨he.1.1, he.1.2, .inl ⟨tt, d, hr, h.symm⟩⟩
    · rename_i hr
      split at h
      · cases h
      · rename_i b hb
        injection h with h
        exact .inr ⟨he.1.1, he.1.2, .inr ⟨b, hr, hb, h.symm⟩⟩
  · simp_all

/-- Everything the guarded block of `BG.FINISH` can do (R177). -/
theorem moveIn_cases (k : Task) (v : Except Fault TimecodeVector) (s : State) :
    (k.gen ≠ s.minuteGen ∧ moveIn k v s = s)
    ∨ (k.gen = s.minuteGen ∧ (∃ f, v = .error f) ∧ moveIn k v s = { s with bg := .bgInvalid })
    ∨ (k.gen = s.minuteGen ∧ ∃ vec, v = .ok vec ∧ moveIn k v s = { setSlot k.target vec s with bg := .bgOk }) := by
  unfold moveIn
  by_cases h : k.gen = s.minuteGen
  · cases v with
    | error f => exact .inr (.inl ⟨h, ⟨f, rfl⟩, by simp [h]⟩)
    | ok vec => exact .inr (.inr ⟨h, vec, rfl, by simp [h]⟩)
  · exact .inl ⟨h, by simp [h]⟩

/-- Everything `BG.FINISH` can do (R177 to R179, R182). -/
theorem doBgFinish_cases {j : Nat} {s t : State} (h : doBgFinish j s = .next t) :
    (s.tasks[j]? = none ∧ t = s)
    ∨ (∃ k, s.tasks[j]? = some k
        ∧ ((∃ v, enc s.par.yearMax k.tuple k.summer = .ok v
              ∧ ((k.gen = s.minuteGen
                    ∧ t = { setSlot k.target v s with tasks := s.tasks.eraseIdx j, bg := .bgOk })
                ∨ (k.gen ≠ s.minuteGen ∧ t = { s with tasks := s.tasks.eraseIdx j })))
          ∨ (enc s.par.yearMax k.tuple k.summer = .error .protocolInputError
              ∧ t = { raiseError .protocolInputError (.tuple k.tuple) s with
                  tasks := s.tasks.eraseIdx j
                  bg := if k.gen = s.minuteGen then .bgInvalid else s.bg }))) := by
  unfold doBgFinish at h
  split at h
  · simp_all
  · rename_i k hk
    injection h with h
    refine .inr ⟨k, hk, ?_⟩
    obtain ⟨v, hv, hs⟩ | ⟨hv, hs⟩ := reportEnc_cases s.par.yearMax k.tuple k.summer { s with tasks := s.tasks.eraseIdx j }
    · rw [hs, hv] at h
      refine .inl ⟨v, hv, ?_⟩
      by_cases hg : k.gen = s.minuteGen
      · exact .inl ⟨hg, by rw [← h]; simp [moveIn, hg, setSlot]⟩
      · exact .inr ⟨hg, by rw [← h]; simp [moveIn, hg]⟩
    · rw [hs, hv] at h
      refine .inr ⟨hv, ?_⟩
      rw [← h]
      by_cases hg : k.gen = s.minuteGen <;> simp [moveIn, hg, raiseError]

/-! ## The step -/

/-- A step is one move of an agent, in the state without its place in the agenda. -/
theorem step_eq {s : State} (hp : s.par.valid = true) : step s = act exec (nextMove s) (dropMove s) := by
  simp [step, stepWith, hp]

/-- A step that answers a next state. -/
theorem step_next {s t : State} (h : step s = .next t) :
    s.par.valid = true ∧ act exec (nextMove s) (dropMove s) = .next t := by
  unfold step stepWith at h
  split at h
  · exact ⟨‹_›, h⟩
  · cases h

/-- A step whose next move is known. -/
theorem step_of_moves {a : Action} {s : State} (h : Moves a s) : step s = act exec a (dropMove s) := by
  rw [step_eq h.1, h.2]

end Sys2Proof.Machine
end

