-- ==== Sys2Proof/Laws/Memory.lean ====
section
/-! SUPPORT. The stores: read after write, and that every operation over them keeps their canonical shape. -/

namespace Sys2Proof.Machine

/-! ## Read after write -/

/-- The mask of one element. -/
theorem oneShift_getLsbD (k j : Nat) (hk : k < 512) : (1#512 <<< k).getLsbD j = decide (j = k) := by
  rw [BitVec.getLsbD_shiftLeft, BitVec.getLsbD_one]
  by_cases h : j = k
  · simp [h, hk]
  · by_cases h' : j < k
    · simp [h, h']
    · have : ¬ j - k = 0 := by omega
      simp [h, this]

/-- Reading a bit store after replacing one element (R14, R40). -/
theorem setBit_getLsbD (v : BitVec 512) (k : Nat) (b : Bool) (j : Nat) (hk : k < 512) :
    (setBit v k b).getLsbD j = if j = k then b else v.getLsbD j := by
  have hb : (if b then 1#512 <<< k else 0#512).getLsbD j = (b && decide (j = k)) := by
    cases b
    · simp
    · rw [if_pos rfl, oneShift_getLsbD k j hk, Bool.true_and]
  unfold setBit
  rw [BitVec.getLsbD_or, BitVec.getLsbD_and, BitVec.getLsbD_not, oneShift_getLsbD k j hk, hb]
  by_cases h : j = k
  · simp [h]
  · by_cases hj : j < 512
    · simp [h, hj]
    · simp [h, BitVec.getLsbD_of_ge v j (by omega)]

/-- The chip `LFSR.STEP` emits, and the chips it leaves (R111). -/
theorem patAt_lfsrStep (s : State) (h : s.n < 512) (j : Nat) :
    patAt (lfsrStep s) j = if j = s.n then chipOf s.lfsr else patAt s j :=
  setBit_getLsbD s.pat s.n (chipOf s.lfsr) j h

/-- Reading a slot after a move-in (R50). -/
theorem slotAt_setSlot (b c : Bool) (v : TimecodeVector) (s : State) :
    slotAt (setSlot b v s) c = if c = b then some v else slotAt s c := by
  cases b <;> cases c <;> rfl

/-- The slot moved into (R50). -/
@[simp] theorem slotAt_setSlot_same (b : Bool) (v : TimecodeVector) (s : State) :
    slotAt (setSlot b v s) b = some v := by
  cases b <;> rfl

/-- The other slot (R50). -/
@[simp] theorem slotAt_setSlot_other (b : Bool) (v : TimecodeVector) (s : State) :
    slotAt (setSlot b v s) (!b) = slotAt s (!b) := by
  cases b <;> rfl

/-- A read of the FIFO gives the words in the order they were pushed (R46). -/
theorem fifoPop_fifoPush (w v : Word) (rest : List Word) (s : State) (h : s.fifo = v :: rest) :
    (fifoPop (fifoPush w s)).fifo = rest ++ [w] := by
  simp [fifoPop, fifoPush, h]

/-! ## Canonical shape -/

/-- A slot's shape. -/
theorem all_vectorWf (o : Option TimecodeVector) :
    o.all vectorWf = true ↔ ∀ v, o = some v → v.length = 60 := by
  cases o <;> simp [vectorWf, Config.vectorLen]

/-- The shape, part by part. -/
theorem Memory.wf_iff (s : State) :
    Memory.wf s = true ↔ s.tab.length = 1028 ∧ (∀ v, s.slot0 = some v → v.length = 60)
      ∧ (∀ v, s.slot1 = some v → v.length = 60) ∧ s.fifo.length ≤ s.par.fifoDepth ∧ s.n ≤ 512 := by
  unfold Memory.wf
  rw [Bool.and_eq_true, Bool.and_eq_true, Bool.and_eq_true, Bool.and_eq_true, all_vectorWf, all_vectorWf,
    beq_iff_eq, decide_eq_true_eq, decide_eq_true_eq, and_assoc, and_assoc, and_assoc]
  rfl

/-- The stores have their shape at reset. -/
theorem reset_memory_wf : Memory.wf State.reset = true := by decide +kernel

/-- `fifo.push` into a FIFO that is not full (R46). -/
theorem fifoPush_wf {s : State} (w : Word) (h : Memory.wf s = true) (hf : isFull s = false) :
    Memory.wf (fifoPush w s) = true := by
  rw [Memory.wf_iff] at h ⊢
  have hne : s.fifo.length ≠ s.par.fifoDepth := by simpa [isFull] using hf
  refine ⟨h.1, h.2.1, h.2.2.1, ?_, h.2.2.2.2⟩
  simp only [fifoPush_fifo, fifoPush_par, List.length_append, List.length_singleton]
  omega

/-- `fifo.pop` (R46). -/
theorem fifoPop_wf {s : State} (h : Memory.wf s = true) : Memory.wf (fifoPop s) = true := by
  rw [Memory.wf_iff] at h ⊢
  refine ⟨h.1, h.2.1, h.2.2.1, ?_, h.2.2.2.2⟩
  simp only [fifoPop_fifo, fifoPop_par, List.length_tail]
  omega

/-- `fifo.clear` (R46). -/
theorem fifoClear_wf {s : State} (h : Memory.wf s = true) : Memory.wf (fifoClear s) = true := by
  rw [Memory.wf_iff] at h ⊢
  exact ⟨h.1, h.2.1, h.2.2.1, Nat.zero_le _, h.2.2.2.2⟩

/-- A move of a whole vector into a slot (R50). -/
theorem setSlot_wf {s : State} (b : Bool) {v : TimecodeVector} (h : Memory.wf s = true) (hv : v.length = 60) :
    Memory.wf (setSlot b v s) = true := by
  rw [Memory.wf_iff] at h ⊢
  obtain ⟨h1, h2, h3, h4, h5⟩ := h
  cases b
  · refine ⟨h1, ?_, h3, h4, h5⟩
    rintro u hu
    cases hu
    exact hv
  · refine ⟨h1, h2, ?_, h4, h5⟩
    rintro u hu
    cases hu
    exact hv

/-- `LFSR.STEP` where it is enabled (R111). -/
theorem lfsrStep_wf {s : State} (h : Memory.wf s = true) (hn : s.n < 512) : Memory.wf (lfsrStep s) = true := by
  rw [Memory.wf_iff] at h ⊢
  exact ⟨h.1, h.2.1, h.2.2.1, h.2.2.2.1, hn⟩

/-- The table has 1028 words (R15). -/
theorem tableWords_length (s : State) : (tableWords s).length = 1028 := by
  simp [tableWords, Config.chipCount]

/-- The writes of `TAB.BUILD` (R127). -/
theorem tabBuild_wf {s : State} (h : Memory.wf s = true) :
    Memory.wf { s with tab := tableWords s, tabValid := true } = true := by
  rw [Memory.wf_iff] at h ⊢
  exact ⟨tableWords_length s, h.2⟩

/-- A vector `ENC` returns has 60 symbols (R61). -/
theorem enc_length {yearMax : Nat} {t : TimeTuple} {d : Bool} {v : TimecodeVector} (h : enc yearMax t d = .ok v) : v.length = 60 := by
  unfold enc at h
  split at h
  · cases h
    simp [encBits, headBits, withParity, minuteBits, hourBits, dateBits, bcd, digitBits]
  · cases h

end Sys2Proof.Machine
end

