-- ==== Sys2Proof/Laws/PerInstr.lean ====
section
/-! SUPPORT. The family OpcodeBit: the opcode of every descriptor's word is its amplitude bit (R67), and the
word's other fields are the descriptor's operands (R66). -/

namespace Sys2Proof.Laws.OpcodeBit

/-- Bit 0 of the word is 1 for the high descriptors and 0 for the low ones, and the fields are the
operands. -/
def Statement (i : Instr) : Prop :=
  ampOf (encode i) = i.amp ∧ cntOf (encode i) = i.cnt ∧ offOf (encode i) = i.off ∧ polOf (encode i) = i.pol

/-- The statement, once for every descriptor. -/
theorem of_fields (i : Instr) : Statement i :=
  ⟨ampOf_packFields .., cntOf_packFields .., offOf_packFields .., polOf_packFields ..⟩

theorem lo (cnt : BitVec 22) (off : BitVec 8) (pol : Bool) : Statement (.lo cnt off pol) := of_fields _
theorem hi (cnt : BitVec 22) (off : BitVec 8) (pol : Bool) : Statement (.hi cnt off pol) := of_fields _
theorem l100 : Statement .l100 := of_fields _
theorem l200 : Statement .l200 := of_fields _
theorem h100 : Statement .h100 := of_fields _
theorem hs : Statement .hs := of_fields _
theorem pmp (off : BitVec 8) : Statement (.pmp off) := of_fields _
theorem pmn (off : BitVec 8) : Statement (.pmn off) := of_fields _

end Sys2Proof.Laws.OpcodeBit
end

