-- ==== Sys2Proof/Laws/Sequencer.lean ====
section
/-! SUPPORT. What one tick of a half-cycle does, in its three cases, and the numbers behind it: half-cycle
lengths, the reserved offset, the constraints on the parameters. -/

namespace Sys2Proof.Machine

/-- The constraints of R5, one by one. -/
theorem Params.valid_parts {p : Params} (h : p.valid = true) :
    p.clockMult % 2 = 0 ∧ 2 ≤ p.halfTicks ∧ p.halfTicks - 2 < 65536 ∧ 0 < p.phaseTicks
      ∧ p.phaseTicks < p.halfTicks ∧ p.phaseTicks < 256 ∧ 0 < p.lowDriveTicks
      ∧ p.lowDriveTicks < p.halfTicks ∧ 1 ≤ p.fifoDepth := by
  simp only [Params.valid, Bool.and_eq_true, decide_eq_true_eq, beq_iff_eq] at h
  tauto

/-- `Hn = CLR + 2` (R150). -/
theorem nominalHalf_eq (clr : BitVec 16) : nominalHalf clr = clr.toNat + 2 := rfl

/-- With `CLR = CLR_PRELOAD` the nominal half-cycle is `H` (R150). -/
theorem nominalHalf_clrPreload {p : Params} (h : p.valid = true) : nominalHalf p.clrPreload = p.halfTicks := by
  have := Params.valid_parts h
  simp only [nominalHalf_eq, Params.clrPreload, BitVec.toNat_ofNat]
  omega

/-- When R154 reserves an offset. -/
theorem offsetReserved_iff {clr : BitVec 16} {amp : Bool} {cnt : BitVec 22} {off : BitVec 8} :
    offsetReserved clr amp cnt off = true ↔ amp = true ∧ 2 ≤ cnt.toNat ∧ clr.toNat + 2 ≤ off.toNat := by
  unfold offsetReserved
  rw [Bool.and_eq_true, Bool.and_eq_true, decide_eq_true_eq, decide_eq_true_eq, and_assoc, nominalHalf_eq]

/-- An offset below `CLR + 2` is never reserved (R154). -/
theorem offsetReserved_of_lt {clr : BitVec 16} {amp : Bool} {cnt : BitVec 22} {off : BitVec 8}
    (h : off.toNat < clr.toNat + 2) : offsetReserved clr amp cnt off = false := by
  have : ¬ clr.toNat + 2 ≤ off.toNat := by omega
  simp [offsetReserved, nominalHalf_eq, this]

/-- What an offset that is not reserved satisfies (R154). -/
theorem offset_lt_of_accepted {clr : BitVec 16} {cnt : BitVec 22} {off : BitVec 8}
    (h : offsetReserved clr true cnt off = false) (hc : 2 ≤ cnt.toNat) : off.toNat < clr.toNat + 2 := by
  by_contra hlt
  have hle : clr.toNat + 2 ≤ off.toNat := by omega
  simp [offsetReserved, nominalHalf_eq, hc, hle] at h

/-- The register value of a half-cycle length (R150, R20). -/
theorem halfLen_of_int {clr : BitVec 16} {amp pol : Bool} {off : BitVec 8} {first last : Bool} {k : Nat}
    (h : halfLenInt clr amp pol off first last = k) : halfLen clr amp pol off first last = BitVec.ofNat 17 k := by
  unfold halfLen
  rw [h]
  rfl

/-- A low half-cycle has `Hn` ticks (R150). -/
theorem halfLenInt_low (clr : BitVec 16) (pol : Bool) (off : BitVec 8) (first last : Bool) :
    halfLenInt clr false pol off first last = (clr.toNat + 2 : Nat) := rfl

/-- A high half-cycle that is both first and last, or neither, has `Hn` ticks (R150). -/
theorem halfLenInt_same (clr : BitVec 16) (amp pol : Bool) (off : BitVec 8) (b : Bool) :
    halfLenInt clr amp pol off b b = (clr.toNat + 2 : Nat) := by
  cases amp <;> cases b <;> simp [halfLenInt, nominalHalf_eq]

/-- A tick ends the half-cycle when one tick was left (R148). -/
theorem endsHalf_iff (s : State) : endsHalf s = true ↔ s.y = 1#17 := by
  unfold endsHalf
  simp only [beq_iff_eq]
  exact ⟨fun h => by bv_omega, fun h => by rw [h]; rfl⟩

/-- A tick ends the descriptor when one tick and one half-cycle were left (R148). -/
theorem endsDescriptor_iff (s : State) : endsDescriptor s = true ↔ s.y = 1#17 ∧ s.x = 1#22 := by
  unfold endsDescriptor
  rw [Bool.and_eq_true, endsHalf_iff]
  simp only [beq_iff_eq]
  exact ⟨fun h => ⟨h.1, by bv_omega⟩, fun h => ⟨h.1, by rw [h.2]; rfl⟩⟩

/-- A tick inside a half-cycle (R148). -/
theorem halfTick_inside {s : State} (h : s.y ≠ 1#17) :
    halfTick s = { s with pins := pinLevel s, y := s.y - 1#17, e := s.e + 1#17 } := by
  have h1 : endsHalf s = false := by simpa [← endsHalf_iff] using h
  have h2 : endsDescriptor s = false := by simp [endsDescriptor, h1]
  simp [halfTick, h1, h2]

/-- The last tick of a half-cycle that is not the descriptor's last (R148). -/
theorem halfTick_endsHalf {s : State} (h : s.y = 1#17) (hx : s.x ≠ 1#22) :
    halfTick s = { s with
      pins := pinLevel s
      st := otherHalf s.st
      x := s.x - 1#22
      y := halfLen s.clr s.amp s.pol s.off false (s.x - 1#22 == 1#22)
      e := 0#17 } := by
  have h1 : endsHalf s = true := (endsHalf_iff s).2 h
  have h2 : endsDescriptor s = false := by
    rw [← Bool.not_eq_true, endsDescriptor_iff]
    tauto
  simp [halfTick, h1, h2]

/-- The last tick of a descriptor (R148). -/
theorem halfTick_endsDescriptor {s : State} (h : s.y = 1#17) (hx : s.x = 1#22) :
    halfTick s = { s with
      pins := pinLevel s, st := .setupDecode, x := 0#22, y := 0#17, e := s.e + 1#17 } := by
  have h1 : endsHalf s = true := (endsHalf_iff s).2 h
  have h2 : endsDescriptor s = true := (endsDescriptor_iff s).2 ⟨h, hx⟩
  simp [halfTick, h1, h2, hx]

/-! ## Levels (R149) -/

@[simp] theorem pinLevel_dropMove (s : State) : pinLevel (dropMove s) = pinLevel s := rfl

theorem pinLevel_highHalf1 {s : State} (h : s.st = .highHalf1) : pinLevel s = pinsP := by
  simp [pinLevel, h]

theorem pinLevel_highHalf2 {s : State} (h : s.st = .highHalf2) : pinLevel s = pinsN := by
  simp [pinLevel, h]

theorem pinLevel_lowHalf1 {s : State} (h : s.st = .lowHalf1) :
    pinLevel s = if s.e.toNat < s.par.lowDriveTicks then pinsP else pinsZ := by
  simp [pinLevel, h]

theorem pinLevel_lowHalf2 {s : State} (h : s.st = .lowHalf2) :
    pinLevel s = if s.e.toNat < s.par.lowDriveTicks then pinsN else pinsZ := by
  simp [pinLevel, h]

/-- The first tick of a descriptor drives `P` (R149, R155). -/
theorem pinLevel_latch {s : State} (hp : s.par.valid = true) (amp pol : Bool) (off : BitVec 8)
    (cnt : BitVec 22) : pinLevel (latch amp pol off cnt s) = pinsP := by
  have hd : 0 < s.par.lowDriveTicks := (Params.valid_parts hp).2.2.2.2.2.2.1
  cases amp
  · rw [pinLevel_lowHalf1 rfl]
    exact if_pos hd
  · exact pinLevel_highHalf1 rfl

end Sys2Proof.Machine
end

