-- ==== Sys2Proof/Laws/Step.lean ====
section
/-! SUPPORT. The step taken apart by the agent that moves, and the frame of each of the larger moves. -/

namespace Sys2Proof.Machine

/-- A step that answers a next state is one of seventeen moves (R10, R190): to show `P`, show it for each. -/
theorem step_by_move {s t : State} {P : Prop} (h : step s = .next t)
    (tick : nextMove s = .tick → tickWith exec (dropMove s) = .next t → P)
    (lfsrStep : nextMove s = .lfsrStep → doLfsrStep (dropMove s) = .next t → P)
    (lfsrGen : nextMove s = .lfsrGen → doLfsrGen (dropMove s) = .next t → P)
    (tabBuild : nextMove s = .tabBuild → doTabBuild (dropMove s) = .next t → P)
    (preload : ∀ v, nextMove s = .preload v → doPreload v (dropMove s) = .next t → P)
    (prime : ∀ r, nextMove s = .prime r → doPrime r (dropMove s) = .next t → P)
    (edge : nextMove s = .edge → t = { dropMove s with edge := true } → P)
    (activate : ∀ n, nextMove s = .activate n → doActivate n (dropMove s) = .next t → P)
    (pushNext : nextMove s = .pushNext → doPushNext (dropMove s) = .next t → P)
    (swap : nextMove s = .swap → doSwap (dropMove s) = .next t → P)
    (bgStart : ∀ r, nextMove s = .bgStart r → doBgStart r (dropMove s) = .next t → P)
    (bgFinish : ∀ k, nextMove s = .bgFinish k → doBgFinish k (dropMove s) = .next t → P)
    (push : ∀ w, nextMove s = .push w → doPush w (dropMove s) = .next t → P)
    (start : nextMove s = .start → doStart (dropMove s) = .next t → P)
    (stop : nextMove s = .stop → doStop (dropMove s) = .next t → P)
    (read : nextMove s = .status ∨ (∃ b, nextMove s = .dump b) → t = dropMove s → P) : P := by
  obtain ⟨-, h⟩ := step_next h
  cases ha : nextMove s <;> rw [ha] at h
  case tick => exact tick ha h
  case lfsrStep => exact lfsrStep ha h
  case lfsrGen => exact lfsrGen ha h
  case tabBuild => exact tabBuild ha h
  case preload v => exact preload v ha h
  case prime r => exact prime r ha h
  case edge => exact edge ha (Host.Outcome.next.inj h).symm
  case activate n => exact activate n ha h
  case pushNext => exact pushNext ha h
  case swap => exact swap ha h
  case bgStart r => exact bgStart r ha h
  case bgFinish k => exact bgFinish k ha h
  case push w => exact push w ha h
  case start => exact start ha h
  case stop => exact stop ha h
  case status => exact read (.inl ha) (Host.Outcome.next.inj h).symm
  case dump b => exact read (.inr ⟨b, ha⟩) (Host.Outcome.next.inj h).symm

/-- The frame of `TICK` (R149), and what it does to the FIFO (R46). -/
theorem tick_frame {s t : State} (h : tickWith exec s = .next t) :
    t = { s with st := t.st, amp := t.amp, pol := t.pol, off := t.off, x := t.x, y := t.y, e := t.e,
                 pins := t.pins, fifo := t.fifo }
    ∧ (t.fifo = s.fifo ∨ (s.st = .setupDecode ∧ ∃ w, s.fifo = w :: t.fifo)) := by
  obtain ⟨-, rfl⟩ | ⟨w, rest, hs, hf, -, -, rfl⟩ | ⟨-, rfl⟩ := tick_cases h
  · exact ⟨rfl, .inl rfl⟩
  · exact ⟨rfl, .inr ⟨hs, w, by simp [fifoPop, hf]⟩⟩
  · exact ⟨rfl, .inl rfl⟩

/-- The frame of `LFSR.GEN` (R112). -/
theorem doLfsrGen_frame {s t : State} (h : doLfsrGen s = .next t) :
    t = { s with lfsr := t.lfsr, n := t.n, pat := t.pat } := by
  obtain ⟨-, -, h⟩ | ⟨-, rfl⟩ := doLfsrGen_cases h
  · generalize 512 = k at h
    subst h
    exact lfsrSteps_frame k s
  · rfl

/-- The frame of `PUSHNEXT` (R172). -/
theorem doPushNext_frame {s t : State} (h : doPushNext s = .next t) :
    t = s ∨ ∃ w, t = { s with fifo := s.fifo ++ [w], pushedAny := true, q := t.q, i := t.i, ms := t.ms,
                              cntUnderrun := t.cntUnderrun, reports := t.reports }
      ∧ s.cntUnderrun ≤ t.cntUnderrun := by
  obtain ⟨-, rfl⟩ | ⟨-, -, v, sym, w, -, -, -, -, rfl⟩ := doPushNext_cases h
  · exact .inl rfl
  · refine .inr ⟨w, ?_, ?_⟩
    · rw [advanceIndices_frame (secondLen sym), streamWord, fifoPush, (sampleEmpty_frame s).1]
    · rw [advanceIndices_frame (secondLen sym)]
      exact (sampleEmpty_frame s).2

/-- The frame of `START` (R145). -/
theorem doStart_frame {s t : State} (h : doStart s = .next t) :
    t = { s with st := t.st, pushedAny := t.pushedAny, wasStarted := t.wasStarted } := by
  obtain ⟨-, rfl⟩ := doStart_cases h
  obtain ⟨-, h⟩ | ⟨-, h⟩ := startSequencer_cases s <;> rw [h]

/-- The shape of the stores depends on five fields and the FIFO's depth alone. -/
theorem Memory.wf_congr {s t : State} (h : Memory.wf s = true) (h1 : t.tab = s.tab) (h2 : t.slot0 = s.slot0)
    (h3 : t.slot1 = s.slot1) (h4 : t.fifo = s.fifo) (h5 : t.par = s.par) (h6 : t.n = s.n) :
    Memory.wf t = true := by
  rw [Memory.wf_iff] at h ⊢
  rw [h1, h2, h3, h4, h5, h6]
  exact h

/-- Every step keeps the stores in their canonical shape (R40, R44, R46, R50). -/
theorem step_memory_wf {s t : State} (h : Memory.wf s = true) (hs : step s = .next t) :
    Memory.wf t = true := by
  have hd : Memory.wf (dropMove s) = true := Memory.wf_congr h rfl rfl rfl rfl rfl rfl
  refine step_by_move hs ?_ ?_ ?_ ?_ ?_ ?_ ?_ ?_ ?_ ?_ ?_ ?_ ?_ ?_ ?_ ?_
  · intro _ hm
    obtain ⟨-, rfl⟩ | ⟨w, rest, -, -, -, -, rfl⟩ | ⟨-, rfl⟩ := tick_cases hm
    · exact hd
    · exact Memory.wf_congr (fifoPop_wf hd) rfl rfl rfl rfl rfl rfl
    · exact Memory.wf_congr hd rfl rfl rfl rfl rfl rfl
  · intro _ hm
    obtain ⟨hn, rfl⟩ | ⟨-, rfl⟩ := doLfsrStep_cases hm
    · exact lfsrStep_wf hd hn
    · exact hd
  · intro _ hm
    obtain ⟨hn, -, ht⟩ | ⟨-, rfl⟩ := doLfsrGen_cases hm
    · have h1 := doLfsrGen_frame hm
      have h2 : t.n = 512 := by rw [ht, lfsrSteps_n, hn]
      rw [Memory.wf_iff] at hd ⊢
      rw [h1]
      exact ⟨hd.1, hd.2.1, hd.2.2.1, hd.2.2.2.1, h2.le⟩
    · exact hd
  · intro _ hm
    obtain ⟨-, rfl⟩ | ⟨-, -, rfl⟩ := doTabBuild_cases hm
    · exact hd
    · exact tabBuild_wf hd
  · intro _ _ hm
    obtain ⟨-, rfl⟩ := doPreload_cases hm
    exact Memory.wf_congr hd rfl rfl rfl rfl rfl rfl
  · intro _ _ hm
    obtain ⟨-, rfl⟩ | ⟨-, -, tt, d, -, ⟨v, hv, rfl⟩ | ⟨-, rfl⟩⟩ := doPrime_cases hm
    · exact hd
    · exact setSlot_wf _ (Memory.wf_congr hd rfl rfl rfl rfl rfl rfl) (enc_length hv)
    · exact Memory.wf_congr hd rfl rfl rfl rfl rfl rfl
  · intro _ ht
    exact Memory.wf_congr hd (by rw [ht]) (by rw [ht]) (by rw [ht]) (by rw [ht]) (by rw [ht]) (by rw [ht])
  · intro _ _ hm
    obtain ⟨-, rfl⟩ | ⟨-, -, -, -, -, -, rfl⟩ := doActivate_cases hm
    · exact hd
    · exact Memory.wf_congr hd rfl rfl rfl rfl rfl rfl
  · intro _ hm
    obtain ⟨-, rfl⟩ | ⟨-, hf, -⟩ := doPushNext_cases hm
    · exact hd
    · obtain rfl | ⟨w, ht, -⟩ := doPushNext_frame hm
      · exact hd
      · rw [ht]
        exact Memory.wf_congr (fifoPush_wf w hd hf) rfl rfl rfl rfl rfl rfl
  · intro _ hm
    obtain ⟨-, rfl⟩ | ⟨-, -, rfl⟩ | ⟨-, -, rfl⟩ | ⟨-, -, -, rfl⟩ := doSwap_cases hm
    · exact hd
    all_goals exact Memory.wf_congr hd rfl rfl rfl rfl rfl rfl
  · intro _ _ hm
    obtain ⟨-, rfl⟩ | ⟨-, -, ⟨tt, d, -, rfl⟩ | ⟨b, -, -, rfl⟩⟩ := doBgStart_cases hm
    · exact hd
    all_goals exact Memory.wf_congr hd rfl rfl rfl rfl rfl rfl
  · intro _ _ hm
    obtain ⟨-, rfl⟩ | ⟨k, -, ⟨v, hv, ⟨-, rfl⟩ | ⟨-, rfl⟩⟩ | ⟨-, rfl⟩⟩ := doBgFinish_cases hm
    · exact hd
    · exact Memory.wf_congr (setSlot_wf k.target hd (enc_length hv)) rfl rfl rfl rfl rfl rfl
    all_goals exact Memory.wf_congr hd rfl rfl rfl rfl rfl rfl
  · intro w _ hm
    obtain ⟨-, rfl⟩ | ⟨hf, rfl⟩ := doPush_cases hm
    · exact hd
    · exact Memory.wf_congr (fifoPush_wf w hd hf) rfl rfl rfl rfl rfl rfl
  · intro _ hm
    rw [doStart_frame hm]
    exact Memory.wf_congr hd rfl rfl rfl rfl rfl rfl
  · intro _ hm
    rw [doStop_cases hm]
    exact Memory.wf_congr (fifoClear_wf hd) rfl rfl rfl rfl rfl rfl
  · intro _ ht
    rw [ht]
    exact hd

end Sys2Proof.Machine
end

