-- ==== Sys2Proof/Laws/Runs.lean ====
section
/-! SUPPORT. Runs (R235): no move looks at the agenda, so a run of single moves, finite or not, has as its prefixes the
runs of `step` with those moves listed. -/

namespace Sys2Proof.Machine

/-- The state with its agenda replaced. -/
def State.withAgenda (l : List Action) (s : State) : State := { s with agenda := l }

/-- A result with its next state's agenda replaced. -/
def withAgenda (l : List Action) : Result → Result
  | .next t => .next (t.withAgenda l)
  | .fault f => .fault f
  | .refused r => .refused r

theorem beginDescriptor_withAgenda (amp pol : Bool) (off : BitVec 8) (cnt : BitVec 22) (s : State) (l : List Action) :
    beginDescriptor amp pol off cnt (s.withAgenda l) = withAgenda l (beginDescriptor amp pol off cnt s) := by
  have h : (s.withAgenda l).clr = s.clr := rfl
  simp only [beginDescriptor, h]
  split
  · rfl
  · split <;> rfl

theorem tickWith_withAgenda (s : State) (l : List Action) :
    tickWith exec (s.withAgenda l) = withAgenda l (tickWith exec s) := by
  have hst : (s.withAgenda l).st = s.st := rfl
  have hf : (s.withAgenda l).fifo = s.fifo := rfl
  simp only [tickWith, hst, hf]
  cases s.st <;> try rfl
  cases s.fifo with
  | nil => rfl
  | cons w rest =>
    simp only [exec_eq]
    exact beginDescriptor_withAgenda _ _ _ _ (fifoPop s) l

theorem lfsrSteps_withAgenda (k : Nat) (s : State) (l : List Action) :
    lfsrSteps k (s.withAgenda l) = (lfsrSteps k s).withAgenda l := by
  induction k generalizing s with
  | zero => rfl
  | succ k ih => exact ih (lfsrStep s)

theorem doLfsrGen_withAgenda (s : State) (l : List Action) :
    doLfsrGen (s.withAgenda l) = withAgenda l (doLfsrGen s) := by
  have h1 : (s.withAgenda l).n = s.n := rfl
  have h2 : (s.withAgenda l).lfsr = s.lfsr := rfl
  simp only [doLfsrGen, h1, h2]
  split
  · rw [lfsrSteps_withAgenda]; rfl
  · rfl

theorem startSequencer_withAgenda (s : State) (l : List Action) :
    startSequencer (s.withAgenda l) = (startSequencer s).withAgenda l := by
  have h : isRunning (s.withAgenda l) = isRunning s := rfl
  simp only [startSequencer, h]
  split <;> rfl

theorem sampleEmpty_withAgenda (s : State) (l : List Action) :
    sampleEmpty (s.withAgenda l) = (sampleEmpty s).withAgenda l := by
  have h : ((s.withAgenda l).pushedAny && isEmpty (s.withAgenda l)) = (s.pushedAny && isEmpty s) := rfl
  simp only [sampleEmpty, h]
  split <;> rfl

theorem advanceIndices_withAgenda (len : Nat) (s : State) (l : List Action) :
    advanceIndices len (s.withAgenda l) = (advanceIndices len s).withAgenda l := by
  have h1 : (s.withAgenda l).q = s.q := rfl
  have h2 : (s.withAgenda l).i = s.i := rfl
  simp only [advanceIndices, h1, h2]
  split
  · split <;> rfl
  · rfl

theorem swapOverrun_withAgenda (s : State) (l : List Action) :
    swapOverrun (s.withAgenda l) = withAgenda l (swapOverrun s) := by
  have h : slotAt (s.withAgenda l) (!(s.withAgenda l).active) = slotAt s (!s.active) := rfl
  simp only [swapOverrun, h]
  split <;> rfl

theorem reportEnc_withAgenda (t : TimeTuple) (v : Except Fault TimecodeVector) (s : State) (l : List Action) :
    reportEnc t v (s.withAgenda l) = (reportEnc t v s).withAgenda l := by
  cases v <;> rfl

theorem moveIn_withAgenda (k : Task) (v : Except Fault TimecodeVector) (s : State) (l : List Action) :
    moveIn k v (s.withAgenda l) = (moveIn k v s).withAgenda l := by
  have h : (s.withAgenda l).minuteGen = s.minuteGen := rfl
  simp only [moveIn, h]
  split
  · rfl
  · cases v <;> rfl

/-- No move looks at the agenda (R47). -/
theorem act_withAgenda (a : Action) (s : State) (l : List Action) :
    act exec a (s.withAgenda l) = withAgenda l (act exec a s) := by
  cases a with
  | tick => exact tickWith_withAgenda s l
  | lfsrStep =>
    have h : (s.withAgenda l).n = s.n := rfl
    simp only [act, doLfsrStep, h]
    split <;> rfl
  | lfsrGen => exact doLfsrGen_withAgenda s l
  | tabBuild =>
    have h1 : (s.withAgenda l).tabValid = s.tabValid := rfl
    have h2 : patDone (s.withAgenda l) = patDone s := rfl
    simp only [act, doTabBuild, h1, h2]
    split
    · rfl
    · split <;> rfl
  | preload v =>
    have h : isRunning (s.withAgenda l) = isRunning s := rfl
    simp only [act, doPreload, h]
    split <;> rfl
  | prime r =>
    have h1 : primeEnabled r (s.withAgenda l) = primeEnabled r s := rfl
    have h2 : (s.withAgenda l).par = s.par := rfl
    simp only [act, doPrime, h1, h2]
    split
    · cases r.reading with
      | none => rfl
      | some x =>
        simp only []
        generalize enc s.par.yearMax x.1 x.2 = v
        cases v <;> rfl
    · rfl
  | edge => rfl
  | activate n =>
    have h : activateEnabled (s.withAgenda l) = activateEnabled s := rfl
    simp only [act, doActivate, h]
    split
    · split
      · rfl
      · exact congrArg (fun t : State => Host.Outcome.next { t with ms := .streamingCurrent })
          (startSequencer_withAgenda { s with startOffset := n, i := n, q := 0, edge := false } l)
    · rfl
  | pushNext =>
    have h1 : pushNextEnabled (s.withAgenda l) = pushNextEnabled s := rfl
    have h2 : currentSecond (s.withAgenda l) = currentSecond s := rfl
    have h3 : (s.withAgenda l).q = s.q := rfl
    simp only [act, doPushNext, h1, h2, h3]
    split
    · cases currentSecond s with
      | error r => rfl
      | ok seq =>
        cases hq : seq[s.q]? with
        | none => simp only [hq]; rfl
        | some w =>
          simp only [hq, sampleEmpty_withAgenda]
          exact congrArg Host.Outcome.next (advanceIndices_withAgenda _ (streamWord w (sampleEmpty s)) l)
    · rfl
  | swap =>
    have h1 : (s.withAgenda l).ms = s.ms := rfl
    have h2 : (s.withAgenda l).bg = s.bg := rfl
    simp only [act, doSwap, h1, h2, swapOverrun_withAgenda]
    split
    · cases s.bg <;> rfl
    · rfl
  | bgStart r =>
    have h1 : bgStartEnabled r (s.withAgenda l) = bgStartEnabled r s := rfl
    have h2 : (s.withAgenda l).timeBase = s.timeBase := rfl
    simp only [act, doBgStart, h1, h2]
    split
    · cases r.reading with
      | some x => rfl
      | none => cases s.timeBase <;> rfl
    · rfl
  | bgFinish k =>
    have h1 : (s.withAgenda l).tasks = s.tasks := rfl
    have h2 : (s.withAgenda l).par = s.par := rfl
    simp only [act, doBgFinish, h1, h2]
    cases s.tasks[k]? with
    | none => rfl
    | some task =>
      have h := reportEnc_withAgenda task.tuple (enc s.par.yearMax task.tuple task.summer)
        { s with tasks := s.tasks.eraseIdx k } l
      exact congrArg Host.Outcome.next ((congrArg _ h).trans (moveIn_withAgenda task _ _ l))
  | push w =>
    have h : isFull (s.withAgenda l) = isFull s := rfl
    simp only [act, doPush, h]
    split <;> rfl
  | start =>
    have h : (s.withAgenda l).clrValid = s.clrValid := rfl
    simp only [act, doStart, h, startSequencer_withAgenda]
    split <;> rfl
  | stop => rfl
  | status => rfl
  | dump b => rfl

/-- A single move, made from the head of an agenda. -/
theorem step_of_stepBy {a : Action} {s t : State} (h : stepBy a s = .next t) (l : List Action) :
    step (s.withAgenda (a :: l)) = .next (t.withAgenda l) := by
  obtain ⟨hp, h⟩ := step_next h
  have hm : Moves a (s.withAgenda (a :: l)) := ⟨hp, rfl⟩
  rw [step_of_moves hm]
  change act exec a (s.withAgenda l) = _
  have hn : act exec a (s.withAgenda []) = .next t := h
  have := act_withAgenda a (s.withAgenda []) l
  rw [hn] at this
  exact this

/-- One step of a run of `k + 1`. -/
theorem core_run_next (k : Nat) {s t : State} (h : step s = .next t) :
    Host.Core.run Sys2Proof.core (k + 1) s = Host.Core.run Sys2Proof.core k t := by
  have hc : Sys2Proof.core.step s = .next t := h
  simp only [Host.Core.run, hc]

/-- What follows is a run too. -/
theorem runsThrough_tail {len : Option Nat} {moves : Nat → Action} {states : Nat → State}
    (h : RunsThrough len moves states) :
    RunsThrough (len.map (· - 1)) (fun k => moves (k + 1)) (fun k => states (k + 1)) := by
  intro k hk
  refine h (k + 1) (fun n hn => ?_)
  have := hk (n - 1) (by simp [hn])
  omega

/-- The listed order of `BOOT` is one R232 allows. -/
theorem bootMoves_order (p : Params) (r : TsAnswer) (second : Nat) :
    BootOrder [.lfsrGen] p r second (bootMoves p r second) :=
  ⟨[.lfsrGen, .tabBuild, .preload p.clrPreload, .prime r], .refl _, by simp, rfl⟩

/-- The twelve orders of `BOOT` with `LFSR.GEN` as one move (R232). -/
theorem bootOrder_cases {p : Params} {r : TsAnswer} {second : Nat} {boot : List Action}
    (h : BootOrder [.lfsrGen] p r second boot) :
    ∃ setup, boot = setup ++ [.edge, .activate second] ∧ setup ∈
      [[.lfsrGen, .tabBuild, .preload p.clrPreload, .prime r], [.lfsrGen, .tabBuild, .prime r, .preload p.clrPreload],
       [.lfsrGen, .preload p.clrPreload, .tabBuild, .prime r], [.lfsrGen, .prime r, .tabBuild, .preload p.clrPreload],
       [.lfsrGen, .preload p.clrPreload, .prime r, .tabBuild], [.lfsrGen, .prime r, .preload p.clrPreload, .tabBuild],
       [.preload p.clrPreload, .lfsrGen, .tabBuild, .prime r], [.prime r, .lfsrGen, .tabBuild, .preload p.clrPreload],
       [.preload p.clrPreload, .lfsrGen, .prime r, .tabBuild], [.prime r, .lfsrGen, .preload p.clrPreload, .tabBuild],
       [.preload p.clrPreload, .prime r, .lfsrGen, .tabBuild], [.prime r, .preload p.clrPreload, .lfsrGen, .tabBuild]] := by
  obtain ⟨setup, hp, hs, rfl⟩ := h
  refine ⟨setup, rfl, ?_⟩
  have hm := List.mem_permutations.2 hp
  simp [List.permutations, List.permutationsAux, List.permutationsAux.rec, List.permutationsAux2] at hm
  rcases hm with rfl | rfl | rfl | rfl | rfl | rfl | rfl | rfl | rfl | rfl | rfl | rfl | rfl | rfl | rfl | rfl | rfl | rfl
    | rfl | rfl | rfl | rfl | rfl | rfl <;>
    first | (simp; done) | simp [List.sublist_cons_iff] at hs

/-- A prefix of `k` moves of a run, finite or not, is a run of `step` with those moves listed (R235). -/
theorem run_prefix (k : Nat) {len : Option Nat} {moves : Nat → Action} {states : Nat → State}
    (h : RunsThrough len moves states) (hk : ∀ n, len = some n → k ≤ n) (l : List Action) :
    Host.Core.run Sys2Proof.core k ((states 0).withAgenda ((List.range k).map moves ++ l))
      = .next ((states k).withAgenda l) := by
  induction k generalizing len moves states with
  | zero => rfl
  | succ k ih =>
    have h0 := step_of_stepBy (h 0 (fun n hn => by have := hk n hn; omega))
      ((List.range k).map (fun j => moves (j + 1)) ++ l)
    have hl : (List.range (k + 1)).map moves ++ l
        = moves 0 :: ((List.range k).map (fun j => moves (j + 1)) ++ l) := by
      rw [List.range_succ_eq_map]
      simp [Function.comp_def]
    rw [hl, core_run_next k h0]
    refine ih (runsThrough_tail h) (fun n hn => ?_)
    obtain ⟨m, hm, rfl⟩ := Option.map_eq_some_iff.1 hn
    have := hk m hm
    omega

/-- The same of a run from reset (R235). -/
theorem isRun_prefix {p : Params} {len : Option Nat} {moves : Nat → Action} {states : Nat → State}
    (h : IsRun p len moves states) (k : Nat) (hk : ∀ n, len = some n → k ≤ n) :
    Host.Core.run Sys2Proof.core k { State.reset with par := p, agenda := (List.range k).map moves }
      = .next ((states k).withAgenda []) := by
  have := run_prefix k h.steps hk []
  rw [h.start, List.append_nil] at this
  exact this

end Sys2Proof.Machine
end

