-- ==== Sys2Proof/Tests/Slice0.lean ====
section
/-! SUPPORT. Tests whose expected values are the spec's (95_test_vectors.md unless a test says otherwise), and for
every obligation with hypotheses a witness that meets them, clause by clause. -/

set_option Elab.async false

namespace Sys2Proof.Tests
open Sys2Proof Machine

/-! ## Helpers -/

/-- What a result carries as its next state. -/
def nextOf : Result → Option State
  | .next t => some t
  | .fault _ => none
  | .refused _ => none

/-- What a result refuses with. -/
def refusalOf : Result → Option Refusal
  | .next _ => none
  | .fault _ => none
  | .refused r => some r

/-- The sequencer's registers of a result: `pins`, `st`, `X`, `Y`, `E`. -/
def regsOf (r : Result) : Option (BitVec 2 × SeqState × BitVec 22 × BitVec 17 × BitVec 17) :=
  (nextOf r).map (fun t => (t.pins, t.st, t.x, t.y, t.e))

/-- The toy machine at reset with these coming moves. -/
def toy (moves : List Action) : State := { State.reset with par := Params.toy, agenda := moves }

/-- The toy machine (`CLR = 6`) started, with these words queued. -/
def started (ws : List Word) (moves : List Action) : State :=
  { toy moves with st := .setupDecode, clr := 6#16, clrValid := true, wasStarted := true, fifo := ws }

/-- The toy machine in a half state of a `HI` descriptor. -/
def inHigh (st : SeqState) (x : BitVec 22) (y e : BitVec 17) (off : BitVec 8) (pol : Bool) : State :=
  { started [] [] with st := st, amp := true, pol := pol, off := off, x := x, y := y, e := e }

/-- The toy machine in a half state of a `LO` descriptor. -/
def inLow (st : SeqState) (x : BitVec 22) (y e : BitVec 17) : State :=
  { started [] [] with st := st, x := x, y := y, e := e }

/-- The worked machine (`CLR = 748`) with a word about to be dequeued. -/
def worked (w : Word) : State :=
  { State.reset with st := .setupDecode, clr := 748#16, clrValid := true, wasStarted := true, fifo := [w] }

/-- The tuple of EV4. -/
def tuple26 : TimeTuple := ⟨2026, 11, 8, 19, 26, 0, 6⟩

/-- A malformed tuple (FS3). -/
def badTuple : TimeTuple := ⟨2026, 11, 8, 19, 60, 10, 6⟩

/-- A vector written as 60 characters (R61). -/
def vectorOf (text : List Char) : TimecodeVector :=
  text.map (fun c => if c = '1' then .one else if c = 'M' then .minuteMark else .zero)

/-- EV4. -/
def vector26 : TimecodeVector :=
  vectorOf "00000000000000000010101100101100110100010011110001011001001M".toList

/-- EV10. -/
def vector27 : TimecodeVector :=
  vectorOf "00000000000000000010111100100100110100010011110001011001001M".toList

/-- The toy machine with pattern and table built, streaming `vector26` from second `i`, word `q`. -/
def streaming (i q : Nat) (moves : List Action) : State :=
  { started [] moves with
    n := 512, lfsr := 0x110#9, pat := specPattern, tabValid := true, ms := .streamingCurrent,
    slot0 := some vector26, timeBase := some ⟨tuple26, false, 0⟩, i := i, q := q }

/-- The same with the table's words in place. -/
def streamingTab (i q : Nat) (moves : List Action) : State :=
  { streaming i q moves with tab := tableWords (streaming i q moves) }

theorem streamingTab_tab (i q : Nat) (moves : List Action) :
    (streamingTab i q moves).tab = tableWords (streamingTab i q moves) := by
  unfold streamingTab
  rfl

/-- The same at the swap, `bg` as given. -/
def swapping (bg : BgState) : State :=
  { streaming 59 0 [.swap] with ms := .swapping, bg := bg, slot1 := some vector27 }

/-! ## Well-formedness: an ill-formed term for each check -/

theorem test_wf_refuses_lo_named_L100 : (Instr.lo 15500#22 0#8 false).wf = false := by decide
theorem test_wf_refuses_lo_named_L200 : (Instr.lo 31000#22 0#8 false).wf = false := by decide
theorem test_wf_refuses_hi_named_PMP : (Instr.hi 240#22 65#8 false).wf = false := by decide
theorem test_wf_refuses_hi_named_PMN : (Instr.hi 240#22 65#8 true).wf = false := by decide
theorem test_wf_refuses_hi_named_H100 : (Instr.hi 15500#22 0#8 false).wf = false := by decide
theorem test_wf_refuses_hi_named_HS : (Instr.hi 1120#22 0#8 false).wf = false := by decide
theorem test_wf_admits_neighbours :
    (Instr.lo 15500#22 0#8 true).wf = true ∧ (Instr.lo 15500#22 1#8 false).wf = true
      ∧ (Instr.hi 239#22 65#8 false).wf = true ∧ (Instr.hi 1120#22 0#8 true).wf = true := by decide

/-! ## Decoding (section 4.1; fields written out from R66, count, offset, polarity, amplitude) -/

theorem test_decode_lo : decodeWord 0b0000000000000000000010_00000000_0_0#32 = .lo 2#22 0#8 false := by decide
theorem test_decode_lo_fields_ignored_but_kept :
    decodeWord 0b0000000000000000000010_11001000_1_0#32 = .lo 2#22 200#8 true := by decide
theorem test_decode_hi_positive : decodeWord 0b0000000000000000000100_00000001_0_1#32 = .hi 4#22 1#8 false := by decide
theorem test_decode_hi_negative : decodeWord 0b0000000000000000000011_00000010_1_1#32 = .hi 3#22 2#8 true := by decide
theorem test_decode_l100 : decodeWord 0x00F23000#32 = .l100 := by decide
theorem test_decode_l200 : decodeWord 0x01E46000#32 = .l200 := by decide
theorem test_decode_h100 : decodeWord 0x00F23001#32 = .h100 := by decide
theorem test_decode_hs : decodeWord 0x00118001#32 = .hs := by decide
theorem test_decode_pmp : decodeWord 0x0003C105#32 = .pmp 65#8 := by decide
theorem test_decode_pmn : decodeWord 0x0003C107#32 = .pmn 65#8 := by decide
theorem test_decode_all_ones : decodeWord 0xFFFFFFFF#32 = .hi 4194303#22 255#8 true := by decide
theorem test_decode_table_word : decodeTableWord 32 0x00F23001 = some .h100 ∧ decodeTableWord 33 0 = none := by decide
theorem test_decode_rejects_three_bytes :
    decodeBytes [0x00#8, 0x30#8, 0xF2#8] = .error (.truncated 3) := by rfl
theorem test_decode_bytes_leaves_rest :
    decodeBytes [0x01#8, 0x80#8, 0x11#8, 0x00#8, 0xAA#8] = .ok (.hs, [0xAA#8]) := by rfl

/-! ## The sequencer (section 5: toy parameters; the register trace of Q4) -/

theorem test_hi_dequeue_tick_Q4 :
    regsOf (step (started [0x00001005#32] [])) = some (0b01#2, .highHalf1, 4#22, 6#17, 1#17) := by decide +kernel
theorem test_hi_half_ends_Q4_tick6 :
    regsOf (step (inHigh .highHalf1 4#22 1#17 6#17 1#8 false))
      = some (0b01#2, .highHalf2, 3#22, 8#17, 0#17) := by decide +kernel
theorem test_hi_last_half_lengthened_Q4_tick22 :
    regsOf (step (inHigh .highHalf1 2#22 1#17 7#17 1#8 false))
      = some (0b01#2, .highHalf2, 1#22, 9#17, 0#17) := by decide +kernel
theorem test_hi_ends_Q4_tick31 :
    regsOf (step (inHigh .highHalf2 1#22 1#17 8#17 1#8 false))
      = some (0b10#2, .setupDecode, 0#22, 0#17, 9#17) := by decide +kernel
/-- Q6: the largest legal offset ends its first half-cycle in the tick that dequeues it (`P1 N15`). -/
theorem test_hi_largest_offset_Q6 :
    regsOf (step (started [0x0000081D#32] [])) = some (0b01#2, .highHalf2, 1#22, 15#17, 0#17) := by decide +kernel
/-- Q7. -/
theorem test_hi_reserved_offset_Q7 :
    refusalOf (step (started [0x00000821#32] [])) = some .reservedOffset := by decide +kernel
/-- Q8. -/
theorem test_hi_single_half_never_displaced_Q8 :
    regsOf (step (started [0x00000421#32] [])) = some (0b01#2, .highHalf1, 1#22, 7#17, 1#17) := by decide +kernel
/-- Q19. -/
theorem test_count_zero_Q19 :
    refusalOf (step (started [0x00000001#32] [])) = some .reservedCount := by decide +kernel
/-- Q1: the drive pulse is the first tick only. -/
theorem test_lo_dequeue_tick_Q1 :
    regsOf (step (started [0x00000800#32] [])) = some (0b01#2, .lowHalf1, 2#22, 7#17, 1#17) := by decide +kernel
theorem test_lo_second_tick_releases_Q1 :
    regsOf (step (inLow .lowHalf1 2#22 7#17 1#17)) = some (0b00#2, .lowHalf1, 2#22, 6#17, 2#17) := by decide +kernel
theorem test_lo_second_half_drives_N_Q1 :
    regsOf (step (inLow .lowHalf2 1#22 8#17 0#17)) = some (0b10#2, .lowHalf2, 1#22, 7#17, 1#17) := by decide +kernel
/-- Section 6: `P815`, `P685` are the first half-cycles of `PMN` and `PMP` at `M = 1500`. -/
theorem test_pmn_first_half : regsOf (step (worked 0x0003C107#32))
    = some (0b01#2, .highHalf1, 240#22, 814#17, 1#17) := by decide +kernel
theorem test_pmp_first_half : regsOf (step (worked 0x0003C105#32))
    = some (0b01#2, .highHalf1, 240#22, 684#17, 1#17) := by decide +kernel
theorem test_l100_dequeue : regsOf (step (worked 0x00F23000#32))
    = some (0b01#2, .lowHalf1, 15500#22, 749#17, 1#17) := by decide +kernel
theorem test_l200_dequeue : regsOf (step (worked 0x01E46000#32))
    = some (0b01#2, .lowHalf1, 31000#22, 749#17, 1#17) := by decide +kernel
theorem test_h100_dequeue : regsOf (step (worked 0x00F23001#32))
    = some (0b01#2, .highHalf1, 15500#22, 749#17, 1#17) := by decide +kernel
theorem test_hs_dequeue : regsOf (step (worked 0x00118001#32))
    = some (0b01#2, .highHalf1, 1120#22, 749#17, 1#17) := by decide +kernel
/-- Q13, Q14: a stall tick holds the pins. -/
theorem test_stall_holds_pins :
    nextOf (step { started [] [] with pins := pinsN }) = some { started [] [] with pins := pinsN } := by decide +kernel
/-- Q15. -/
theorem test_stop_Q15 :
    (nextOf (step { inHigh .highHalf2 1#22 4#17 4#17 0#8 false with fifo := [0#32], agenda := [.stop] })).map
      (fun t => (t.pins, t.st, t.fifo, t.clr)) = some (0b00#2, .stopped, [], 6#16) := by decide +kernel
/-- R29: a push before any `START` leaves `pushedAny` (PR1), the first push after one sets it (PR2), also after
`START` and `STOP`. -/
theorem test_pushedAny_only_after_start :
    (nextOf (step (toy [.push 0x800#32]))).map State.pushedAny = some false
    ∧ (nextOf (step (started [] [.push 0x801#32]))).map State.pushedAny = some true
    ∧ (nextOf (Host.Core.run Sys2Proof.core 4 (toy [.preload 6#16, .start, .stop, .push 0x801#32]))).map State.pushedAny
      = some true := by decide +kernel
/-- Q16: the ninth word is held. -/
theorem test_push_held_Q16 :
    (nextOf (step { toy [.push 9#32] with fifo := List.replicate 8 7#32 })).map State.fifo
      = some (List.replicate 8 7#32) := by decide +kernel
/-- Q17. -/
theorem test_start_needs_preload_Q17 :
    refusalOf (step (toy [.start])) = some .startBeforePreload := by decide +kernel
/-- Q18. -/
theorem test_preload_refused_Q18 :
    refusalOf (step (started [] [.preload 6#16])) = some .preloadWhileRunning := by decide +kernel
/-- R235: the traces of a push, a reading of the status and the two ticks of `HI 1` with `CLR = 0`; the stall tick
before the push and the move that is no tick are not listed. -/
theorem test_traces_R235 :
    let s : State := { started [] [.tick, .push 0x401#32, .tick, .status] with clr := 0#16 }
    pinTrace 5 s = [pinsP, pinsP] ∧ wordTrace 5 s = [0x401#32] := by decide +kernel
theorem test_withFetchWord_runs_next :
    regsOf (step (State.reset.withFetchWord 32 0x00118001))
      = some (0b01#2, .highHalf1, 1120#22, 749#17, 1#17) := by decide +kernel

/-! ## The chip generator (sections 3.1, 3.2) -/

theorem test_lfsr_single_steps :
    lfsrNext 0x000#9 = 0x110#9 ∧ lfsrNext 0x110#9 = 0x088#9 ∧ lfsrNext 0x011#9 = 0x118#9
      ∧ lfsrNext 0x001#9 = 0x110#9 ∧ lfsrNext 0x1FF#9 = 0x1EF#9 ∧ lfsrNext 0x002#9 = 0x001#9
      ∧ lfsrNext 0x100#9 = 0x080#9 := by decide
theorem test_lfsr_step_emits :
    (nextOf (step { toy [.lfsrStep] with n := 5, lfsr := 0x011#9 })).map (fun t => (t.n, t.lfsr, t.pat))
      = some (6, 0x118#9, 0b100000#512) := by decide +kernel
/-- The listed pattern: first ones at chips 5, 9, 10, 15, 18, 19, 20, 23; the last eight chips. -/
theorem test_pattern_chips :
    (List.range 24).filter (fun k => specPattern.getLsbD k) = [5, 9, 10, 15, 18, 19, 20, 23]
      ∧ (List.range 8).map (fun k => specPattern.getLsbD (504 + k))
        = [false, false, false, false, false, false, false, true] := by decide +kernel
theorem test_lfsr_gen : (match step (toy [.lfsrGen]) with
    | .next t => t.pat == specPattern && t.n == 512 && t.lfsr == 0x110#9
    | .fault _ => false
    | .refused _ => false) = true := by decide +kernel

/-! ## The table (section 4.3) -/

/-- The worked machine's table. -/
def workedTable : List Word := tableWords { State.reset with pat := specPattern }

theorem test_table_fixed_entries :
    workedTable.take 4 = [0x00F23000#32, 0x01E46000#32, 0x00F23001#32, 0x00118001#32] := by decide +kernel
theorem test_table_chip_entries :
    workedTable[9]? = some 0x0003C107#32 ∧ workedTable[10]? = some 0x0003C105#32
      ∧ workedTable[515]? = some 0x0003C107#32 ∧ workedTable[520]? = some 0x0003C107#32
      ∧ workedTable[521]? = some 0x0003C105#32 ∧ workedTable[1027]? = some 0x0003C105#32 := by decide +kernel

/-! ## The encoder (sections 2.2, 2.3) -/

theorem test_enc_EV4 : enc 9999 tuple26 false = .ok vector26 := by rfl
theorem test_enc_EV2_summer : enc 9999 ⟨2024, 3, 31, 1, 0, 0, 6⟩ true
    = .ok (vectorOf "00000000000000000100100000000100000110001111111000001001000M".toList) := by rfl
theorem test_enc_EV9_century : enc 9999 ⟨1999, 9, 9, 9, 9, 9, 3⟩ true
    = .ok (vectorOf "00000000000000000100110010000100100010010000110010100110011M".toList) := by rfl
theorem test_enc_rejects_day_32 : enc 9999 ⟨2024, 1, 32, 0, 0, 0, 0⟩ false = .error .protocolInputError := by rfl
theorem test_enc_accepts_31_february : (enc 9999 ⟨2024, 2, 31, 0, 0, 0, 0⟩ false).isOk = true := by rfl
/-- `YEAR_MAX` is a parameter (U23). -/
theorem test_enc_year_above_parameter : enc 2025 tuple26 false = .error .protocolInputError
    ∧ enc 2026 tuple26 false = .ok vector26 := ⟨by rfl, by rfl⟩
theorem test_dump_EV4 : dumpVector vector26
    = "0 00000000000000 0 0 0 1 0 1 0110010 1 100110 1 000100 111 10001 01100100 1 M".toList := by decide +kernel

/-! ## The scheduler (section 7) -/

/-- FS1: `ACTIVATE` at second 57. -/
theorem test_activate_FS1 :
    (nextOf (step { streaming 0 0 [.activate 57] with ms := .idle, st := .stopped, edge := true })).map
      (fun t => (t.startOffset, t.i, t.q, t.ms, t.st)) = some (57, 57, 0, .streamingCurrent, .setupDecode) := by
  decide +kernel
/-- R172's example: a `ONE` second begins with `L200`. -/
theorem test_pushNext_first_word :
    (nextOf (step (streamingTab 20 0 [.pushNext]))).map (fun t => (t.fifo, t.i, t.q, t.cntUnderrun))
      = some ([0x01E46000#32], 20, 1, 0) := by decide +kernel
/-- FS4: the sample of `empty`. -/
theorem test_pushNext_underrun_FS4 :
    (nextOf (step { streamingTab 30 100 [.pushNext] with pushedAny := true })).map
      (fun t => (t.cntUnderrun, t.reports, t.q)) = some (1, [⟨.queueUnderrun, .indices 30 100⟩], 101) := by
  decide +kernel
/-- R174's example. -/
theorem test_swap_flips : (nextOf (step (swapping .bgOk))).map (fun t => (t.active, t.i, t.minuteGen, t.bg))
    = some (true, 0, 1, .bgNone) := by decide +kernel
/-- FS3. -/
theorem test_swap_keeps_after_input_error :
    (nextOf (step (swapping .bgInvalid))).map (fun t => (t.active, t.minuteGen, t.cntOverrun))
      = some (false, 1, 0) := by decide +kernel
/-- FS2. -/
theorem test_swap_overrun_FS2 :
    (nextOf (step (swapping .bgRunning))).map (fun t => (t.active, t.minuteGen, t.cntOverrun))
      = some (true, 1, 1) := by decide +kernel
/-- FS6. -/
theorem test_swap_overrun_never_written :
    refusalOf (step { swapping .bgNone with slot1 := none }) = some .inactiveSlotNeverWritten := by decide +kernel
/-- FS1: the background build of `V26`. -/
theorem test_bgFinish_moves_in :
    (nextOf (step { streaming 0 0 [.bgFinish 0] with bg := .bgRunning, tasks := [⟨tuple26, false, true, 0⟩] })).map
      (fun t => (t.slot1, t.bg, t.tasks)) = some (some vector26, .bgOk, []) := by decide +kernel
/-- FS2: a late result is dropped. -/
theorem test_bgFinish_late_FS2 :
    (nextOf (step { streaming 0 0 [.bgFinish 0] with minuteGen := 1, tasks := [⟨tuple26, false, false, 0⟩] })).map
      (fun t => (t.slot0, t.slot1, t.bg, t.tasks)) = some (some vector26, none, .bgNone, []) := by decide +kernel
/-- FS3: a malformed tuple. -/
theorem test_bgFinish_error_FS3 :
    (nextOf (step { streaming 0 0 [.bgFinish 0] with bg := .bgRunning, tasks := [⟨badTuple, false, true, 0⟩] })).map
      (fun t => (t.slot1, t.bg, t.cntInputErr)) = some (none, .bgInvalid, 1) := by decide +kernel
/-- FS5: the time base is not rewritten by a failed read. -/
theorem test_bgStart_unavailable_FS5 :
    (nextOf (step { streaming 0 0 [.bgStart ⟨60, none⟩] with minuteGen := 1 })).map
      (fun t => (t.cntTimeSrc, t.bg, t.timeBase, t.tasks.length))
      = some (1, .bgRunning, some ⟨tuple26, false, 0⟩, 1) := by decide +kernel
/-- R233: no time base at boot. -/
theorem test_prime_unavailable : refusalOf (step (toy [.prime ⟨60, none⟩])) = some .noTimeBase := by decide +kernel

/-- `BOOT` and then the clock alone: a run without an end goes through `BOOT` (R235, R232). -/
theorem test_boot_then_ticks_R235 :
    ThroughBoot Params.worked (fun k => (bootMoves Params.worked ⟨60, some (tuple26, false)⟩ 57).getD k .tick) := by
  refine ⟨[.lfsrGen], ⟨60, some (tuple26, false)⟩, 57, _, .inl rfl, rfl, bootMoves_order _ _ _, fun m => ?_⟩
  obtain hm | ⟨j, rfl⟩ : m < 6 ∨ ∃ j, m = 6 + j := by
    by_cases h : m < 6
    · exact .inl h
    · exact .inr ⟨m - 6, by omega⟩
  · left
    interval_cases m <;> decide
  · right
    rw [List.range_add, List.map_append, List.filter_append]
    exact ⟨_, rfl⟩

/-! ## Witnesses: for every obligation with hypotheses, states and operands that meet them, clause by clause -/

/-- A result that carries a next state. -/
theorem exists_next {r : Result} (h : (nextOf r).isSome = true) : ∃ t, r = .next t := by
  cases r with
  | next t => exact ⟨t, rfl⟩
  | fault f => cases h
  | refused f => cases h

theorem witness_OpcodeIsAmpBit :
    0x00000B22#32 &&& 1#32 = 0#32 ∧ 0x00001007#32 &&& 1#32 = 1#32 := by decide

theorem witness_DecodeInvertsEncode :
    (Instr.lo 0#22 255#8 true).wf = true ∧ (Instr.hi 4194303#22 255#8 true).wf = true ∧ Instr.l100.wf = true
      ∧ Instr.l200.wf = true ∧ Instr.h100.wf = true ∧ Instr.hs.wf = true ∧ (Instr.pmp 0#8).wf = true
      ∧ (Instr.pmn 255#8).wf = true := by decide

theorem witness_EncodeInvertsDecode : ([1#8, 2#8, 3#8] : List Byte).length < 4 := by decide

theorem witness_StepRunsDecodedWord :
    Dequeues 0x00001005#32 [0x800#32] (started [0x00001005#32, 0x800#32] [.tick, .status])
    ∧ (Instr.wf .hs = true ∧ Dequeues (encode .hs) [] (worked (encode .hs)))
    ∧ (Instr.wf (.lo 2#22 200#8 true) = true ∧ (started [7#32] []).par.valid = true
        ∧ (started [7#32] []).clrValid = true) := by decide +kernel

theorem witness_LowDequeueTick :
    (started [] []).par.valid = true ∧ (1#22 : BitVec 22) ≠ 0#22 ∧ (4194303#22 : BitVec 22) ≠ 0#22 := by decide

/-- With `CLR = 6`: one half-cycle; the largest offset below `CLR + 1`, below `CLR + 2`, and equal to
`CLR + 1`. -/
theorem witness_HighDequeueTick :
    (1#22 : BitVec 22) = 1#22
    ∧ (2 ≤ (2#22 : BitVec 22).toNat ∧ (6#8 : BitVec 8).toNat < (started [] []).clr.toNat + 1)
    ∧ (2 ≤ (2#22 : BitVec 22).toNat ∧ (7#8 : BitVec 8).toNat < (started [] []).clr.toNat + 2)
    ∧ (2 ≤ (2#22 : BitVec 22).toNat ∧ (7#8 : BitVec 8).toNat = (started [] []).clr.toNat + 1) := by decide

theorem witness_HighPseudoDequeueTick :
    (6#8 : BitVec 8).toNat < (started [] []).clr.toNat + 1
    ∧ (7#8 : BitVec 8).toNat = (started [] []).clr.toNat + 1
    ∧ (7#8 : BitVec 8).toNat < (started [] []).clr.toNat + 2 := by decide

/-- `0x821` is `HI 2, +8`, `0x81D` is `HI 2, +7`, `0x421` is `HI 1, +8`, with `CLR = 6`. -/
theorem witness_ReservedWordsRefused :
    (Dequeues 0x3FF#32 [] (started [0x3FF#32] []) ∧ cntOf 0x3FF#32 = 0#22)
    ∧ (Dequeues 0x821#32 [] (started [0x821#32] []) ∧ ampOf 0x821#32 = true ∧ 2 ≤ (cntOf 0x821#32).toNat
        ∧ (started [0x821#32] []).clr.toNat + 2 ≤ (offOf 0x821#32).toNat)
    ∧ (Dequeues 0x81D#32 [] (started [0x81D#32] []) ∧ cntOf 0x81D#32 ≠ 0#22
        ∧ ¬(ampOf 0x81D#32 = true ∧ 2 ≤ (cntOf 0x81D#32).toNat
          ∧ (started [0x81D#32] []).clr.toNat + 2 ≤ (offOf 0x81D#32).toNat))
    ∧ (Dequeues 0x421#32 [] (started [0x421#32] []) ∧ cntOf 0x421#32 ≠ 0#22
        ∧ ¬(ampOf 0x421#32 = true ∧ 2 ≤ (cntOf 0x421#32).toNat
          ∧ (started [0x421#32] []).clr.toNat + 2 ≤ (offOf 0x421#32).toNat))
    ∧ (Moves (.push 0#32) (started [] [.push 0#32]) ∧ (started [] []).fifo.length ≠ (started [] []).par.fifoDepth) := by
  decide +kernel

theorem witness_DescriptorFrame :
    (∃ t, exec (.lo 2#22 0#8 false) (started [] []) = .next t) ∧ (∃ t, exec (.hi 4#22 1#8 true) (started [] []) = .next t)
    ∧ (∃ t, exec .l100 (started [] []) = .next t) ∧ (∃ t, exec .l200 (started [] []) = .next t)
    ∧ (∃ t, exec .h100 (started [] []) = .next t) ∧ (∃ t, exec .hs (started [] []) = .next t)
    ∧ (∃ t, exec (.pmp 1#8) (started [] []) = .next t) ∧ (∃ t, exec (.pmn 1#8) (started [] []) = .next t) :=
  ⟨exists_next (by decide +kernel), exists_next (by decide +kernel), exists_next (by decide +kernel),
    exists_next (by decide +kernel), exists_next (by decide +kernel), exists_next (by decide +kernel),
    exists_next (by decide +kernel), exists_next (by decide +kernel)⟩

theorem witness_DescriptorBeginsOnFirstHalf :
    (started [] []).par.valid = true ∧ ∃ t, exec (.hi 2#22 7#8 false) (started [] []) = .next t :=
  ⟨by decide, exists_next (by decide +kernel)⟩

/-- A tick before and after the drive pulse, on either side, and in the high path. -/
theorem witness_TickInsideHalf :
    (Moves .tick (inHigh .highHalf1 4#22 2#17 5#17 1#8 false) ∧ 2 ≤ (2#17 : BitVec 17).toNat)
    ∧ Moves .tick (inHigh .highHalf2 3#22 8#17 0#17 1#8 false)
    ∧ (Moves .tick (inLow .lowHalf1 2#22 8#17 0#17) ∧ ¬(inLow .lowHalf1 2#22 8#17 0#17).par.lowDriveTicks ≤ 0)
    ∧ (Moves .tick (inLow .lowHalf2 1#22 7#17 1#17) ∧ (inLow .lowHalf2 1#22 7#17 1#17).par.lowDriveTicks ≤ 1)
    ∧ isHalf .highHalf1 = true ∧ isHalf .highHalf2 = true ∧ isHalf .lowHalf1 = true ∧ isHalf .lowHalf2 = true := by
  decide +kernel

/-- Going on to a half-cycle that is not the last, and to the last with either polarity (`off = CLR + 1`). -/
theorem witness_TickEndsHalf :
    (Moves .tick (inHigh .highHalf1 3#22 1#17 7#17 7#8 false) ∧ 2 ≤ (3#22 : BitVec 22).toNat)
    ∧ (Moves .tick (inHigh .highHalf2 2#22 1#17 7#17 7#8 false) ∧ 2 ≤ (2#22 : BitVec 22).toNat)
    ∧ (Moves .tick (inHigh .highHalf1 2#22 1#17 7#17 7#8 true)
        ∧ (7#8 : BitVec 8).toNat < (started [] []).clr.toNat + 2)
    ∧ (Moves .tick (inLow .lowHalf1 2#22 1#17 7#17) ∧ ¬7 < Params.toy.lowDriveTicks)
    ∧ (Moves .tick (inLow .lowHalf2 2#22 1#17 0#17) ∧ 0 < Params.toy.lowDriveTicks) := by
  decide +kernel

theorem witness_TickEndsDescriptor :
    Moves .tick (inHigh .highHalf1 1#22 1#17 7#17 0#8 false) ∧ Moves .tick (inHigh .highHalf2 1#22 1#17 7#17 0#8 false)
    ∧ (Moves .tick (inLow .lowHalf1 1#22 1#17 0#17) ∧ 0 < Params.toy.lowDriveTicks)
    ∧ (Moves .tick (inLow .lowHalf2 1#22 1#17 7#17) ∧ ¬7 < Params.toy.lowDriveTicks) := by
  decide +kernel

theorem witness_IdleTicksChangeNothing :
    (Moves .tick (toy [.tick]) ∧ (toy [.tick]).st = .stopped)
    ∧ (Moves .tick (started [] []) ∧ (started [] []).st = .setupDecode ∧ (started [] []).fifo = []) := by
  decide +kernel

theorem witness_HalfCycleLength : Params.toy.valid = true ∧ Params.worked.valid = true := by decide

/-- With `CLR = 6`: the largest legal offset, a single half-cycle with a larger one, a low descriptor. -/
theorem witness_AcceptedDescriptorDuration :
    Accepted 6#16 (.hi 2#22 7#8 true) ∧ Accepted 6#16 (.hi 1#22 255#8 false) ∧ Accepted 6#16 (.lo 1#22 255#8 true)
    ∧ 1 < (Instr.hi 2#22 7#8 true).cnt.toNat := by decide

/-- Q10 with a word left over. -/
theorem witness_PinsFollowSegments :
    let s := started [0x40D#32, 0xC0B#32, 0x809#32, 0#32] []
    s.par.valid = true ∧ s.agenda = [] ∧ s.st = .setupDecode
    ∧ s.fifo = [0x40D#32, 0xC0B#32, 0x809#32] ++ [0#32]
    ∧ ∀ w ∈ [0x40D#32, 0xC0B#32, 0x809#32], Accepted s.clr (decodeWord w) := by
  refine ⟨by decide, rfl, rfl, rfl, ?_⟩
  intro w hw
  simp only [List.mem_cons, List.not_mem_nil, or_false] at hw
  rcases hw with rfl | rfl | rfl <;> decide

theorem witness_SequencerInvariantKept :
    SequencerInv (inHigh .highHalf1 2#22 1#17 7#17 7#8 true)
    ∧ ∃ t, step (inHigh .highHalf1 2#22 1#17 7#17 7#8 true) = .next t :=
  ⟨by constructor <;> decide, exists_next (by decide +kernel)⟩

theorem witness_StatusReadsOnly : Moves .status (started [] [.status]) := by decide +kernel

/-- `FIFO_DEPTH = 8`: seven and eight words queued, the sequencer stopped and running. -/
theorem witness_PushAppendsOrIsHeld :
    (Moves (.push 0#32) { toy [.push 0#32] with fifo := List.replicate 7 1#32 }
      ∧ (List.replicate 7 1#32).length ≠ (toy []).par.fifoDepth)
    ∧ (Moves (.push 0#32) { toy [.push 0#32] with fifo := List.replicate 8 1#32 }
      ∧ (List.replicate 8 1#32).length = (toy []).par.fifoDepth)
    ∧ Moves (.push 0#32) (started (List.replicate 7 1#32) [.push 0#32]) := by decide +kernel

theorem witness_PreloadOnlyWhileStopped :
    (Moves (.preload 6#16) (toy [.preload 6#16]) ∧ (toy []).st = .stopped)
    ∧ (Moves (.preload 6#16) (started [] [.preload 6#16]) ∧ (started [] []).st ≠ .stopped) := by decide +kernel

theorem witness_StartNeedsPreload :
    (Moves .start (toy [.start]) ∧ (toy [.start]).clrValid = false)
    ∧ (Moves .start { toy [.start] with clrValid := true } ∧ (toy [.start]).st = .stopped)
    ∧ (Moves .start (started [] [.start]) ∧ (started [] [.start]).clrValid = true
        ∧ (started [] [.start]).st ≠ .stopped) := by decide +kernel

theorem witness_StopReleasesAndClears : Moves .stop (started [0x801#32] [.stop]) := by decide +kernel

/-- Each of the four ends: untouched, appended, dequeued, cleared. -/
theorem witness_FifoKeepsOrder :
    (∃ t, step (started [0x801#32] [.status]) = .next t) ∧ (∃ t, step (started [] [.push 0#32]) = .next t)
    ∧ (∃ t, step (started [0x801#32] []) = .next t) ∧ (∃ t, step (started [0x801#32] [.stop]) = .next t) :=
  ⟨exists_next (by decide +kernel), exists_next (by decide +kernel), exists_next (by decide +kernel),
    exists_next (by decide +kernel)⟩

/-- The first and the last enabled step. -/
theorem witness_LfsrStepEffect :
    (Moves .lfsrStep (toy [.lfsrStep]) ∧ (toy []).n < 512)
    ∧ (Moves .lfsrStep { toy [.lfsrStep] with n := 511 } ∧ 511 < 512) := by decide +kernel

theorem witness_LfsrGenProducesListedPattern :
    Moves .lfsrGen (toy [.lfsrGen]) ∧ (toy []).n = 0 ∧ (toy []).lfsr = 0#9 := by decide +kernel

theorem witness_TableBuildContents :
    Moves .tabBuild { toy [.tabBuild] with n := 511 } ∧ Moves .tabBuild { toy [.tabBuild] with n := 512 }
    ∧ (toy []).tabValid = false := by decide +kernel

theorem witness_LookupComposition :
    (toy []).tabValid = false ∧ (streaming 0 0 []).tabValid = true ∧ 59 < 60 ∧ 60 ≤ 60 := by decide

theorem witness_SecondLasts155000HalfCycles :
    (streamingTab 0 0 []).par.valid = true ∧ (streamingTab 0 0 []).tab = tableWords (streamingTab 0 0 [])
    ∧ lookup (streamingTab 0 0 []) .minuteMark 59 = .ok (secondWords (streamingTab 0 0 []) .minuteMark 59) :=
  ⟨by decide, streamingTab_tab 0 0 [], lookup_ok.2 ⟨rfl, by decide, by decide, rfl⟩⟩

theorem witness_TableWordsAreAccepted :
    (toy []).par.valid = true ∧ encode .hs ∈ tableWords (toy []) ∧ (started [] []).clr = (toy []).par.clrPreload := by
  decide +kernel

/-- Half-way states of the boot: two chips emitted. -/
theorem witness_StoreInvariantKept :
    StoreInv (toy [.lfsrGen]) ∧ (∃ t, step (toy [.lfsrGen]) = .next t)
    ∧ StoreInv { toy [.lfsrStep] with n := 2, lfsr := 0x088#9 }
    ∧ ∃ t, step { toy [.lfsrStep] with n := 2, lfsr := 0x088#9 } = .next t :=
  ⟨by constructor <;> decide +kernel, exists_next (by decide +kernel), by constructor <;> decide +kernel,
    exists_next (by decide +kernel)⟩

/-- Every field at its largest, and one beyond. -/
theorem witness_EncodeRejectsExactlyInvalid :
    validTuple 9999 ⟨9999, 12, 31, 23, 59, 59, 6⟩ = true ∧ validTuple 9999 ⟨0, 1, 1, 0, 0, 0, 0⟩ = true
    ∧ ¬(10000 ≤ 9999) ∧ validTuple 9999 badTuple = false := by decide

theorem witness_VectorLayout : enc 9999 tuple26 false = .ok vector26 := by rfl

theorem witness_VectorInvariants : EncVector 9999 vector26 := ⟨tuple26, false, rfl⟩

theorem witness_VectorRoundTrip : enc 9999 ⟨2099, 12, 31, 23, 59, 59, 3⟩ false
    = .ok (vectorOf "00000000000000000010110011010110001110001100101001100110010M".toList) := by rfl

theorem witness_VectorIgnoresSecondAndCentury :
    validTuple 9999 tuple26 = true ∧ 59 ≤ 59 ∧ (9926 ≤ 9999 ∧ 9926 % 100 = tuple26.year % 100)
    ∧ enc 9999 tuple26 false = .ok vector26 ∧ (enc 9999 tuple26 true).isOk = true := by
  refine ⟨by decide, by decide, by decide, rfl, rfl⟩

/-- A slot that holds a vector, one that holds none, and the vector. -/
theorem witness_DumpGroupsByField :
    (Moves (.dump false) (streaming 0 0 [.dump false])
      ∧ slotAt (streaming 0 0 [.dump false]) false = some vector26)
    ∧ (Moves (.dump true) (streaming 0 0 [.dump true]) ∧ slotAt (streaming 0 0 [.dump true]) true = none)
    ∧ vector26.length = 60 := by decide +kernel

/-- The edge; enabled, at seconds 59 and 60. -/
theorem witness_ActivateEffect :
    let s : State := { streaming 0 0 [.activate 59] with ms := .idle, st := .stopped, edge := true }
    Moves .edge (toy [.edge])
    ∧ (Moves (.activate 59) s ∧ s.ms = .idle ∧ (slotAt s s.active).isSome = true ∧ s.tabValid = true
      ∧ s.clrValid = true ∧ s.edge = true)
    ∧ Moves (.activate 60) { s with agenda := [.activate 60] } ∧ 59 ≤ 59 ∧ 60 ≤ 60 := by decide +kernel

/-- A word inside a second, the last word of second 20, and the last of second 59 with an underrun. -/
theorem witness_PushNextEffect :
    (let s := streamingTab 20 512 [.pushNext]
     Moves .pushNext s ∧ slotAt s s.active = some vector26 ∧ vector26[s.i]? = some .one
        ∧ (secondWords s .one s.i)[s.q]? = some 0x0003C005#32 ∧ s.q + 1 ≠ (secondWords s .one s.i).length
        ∧ s.pushedAny = false)
    ∧ (let s := streamingTab 20 513 [.pushNext]
       Moves .pushNext s ∧ s.ms = .streamingCurrent ∧ s.fifo.length ≠ s.par.fifoDepth
        ∧ slotAt s s.active = some vector26 ∧ vector26[s.i]? = some .one
        ∧ (lookup s .one s.i).isOk = true ∧ (secondWords s .one s.i)[s.q]? = some 0x00118001#32
        ∧ s.q + 1 = (secondWords s .one s.i).length ∧ s.i ≠ 59)
    ∧ (let s := { streamingTab 59 514 [.pushNext] with pushedAny := true }
       Moves .pushNext s ∧ slotAt s s.active = some vector26 ∧ vector26[s.i]? = some .minuteMark
        ∧ (secondWords s .minuteMark s.i)[s.q]? = some 0x00118001#32
        ∧ s.q + 1 = (secondWords s .minuteMark s.i).length ∧ s.i = 59 ∧ s.pushedAny = true ∧ s.fifo = []) := by
  decide +kernel

theorem witness_SwapOutcomes :
    (Moves .swap (swapping .bgOk) ∧ (swapping .bgOk).ms = .swapping) ∧ Moves .swap (swapping .bgInvalid)
    ∧ (Moves .swap (swapping .bgRunning) ∧ (slotAt (swapping .bgRunning) true).isSome = true)
    ∧ (Moves .swap { swapping .bgNone with slot1 := none }
        ∧ slotAt { swapping .bgNone with slot1 := none } true = none) := by decide +kernel

theorem witness_BgStartEffect :
    (Moves (.bgStart ⟨60, none⟩) (streaming 0 0 [.bgStart ⟨60, none⟩]) ∧ (streaming 0 0 []).par.lookahead = 60
      ∧ (streaming 0 0 []).ms = .streamingCurrent ∧ (streaming 0 0 []).bg = .bgNone
      ∧ (streaming 0 0 []).timeBase = some ⟨tuple26, false, 0⟩)
    ∧ Moves (.bgStart ⟨60, some (tuple26, false)⟩) (streaming 0 0 [.bgStart ⟨60, some (tuple26, false)⟩])
    ∧ Moves (.bgStart ⟨60, none⟩) { streaming 0 0 [.bgStart ⟨60, none⟩] with timeBase := none } := by
  decide +kernel

theorem witness_BgFinishEffect :
    (let s : State := { streaming 0 0 [.bgFinish 0] with tasks := [⟨tuple26, false, true, 0⟩] }
     Moves (.bgFinish 0) s ∧ s.tasks[0]? = some ⟨tuple26, false, true, 0⟩ ∧ (enc 9999 tuple26 false).isOk = true)
    ∧ (let s : State := { streaming 0 0 [.bgFinish 0] with minuteGen := 1, tasks := [⟨badTuple, false, false, 0⟩] }
       Moves (.bgFinish 0) s ∧ s.tasks[0]? = some ⟨badTuple, false, false, 0⟩ ∧ 0 ≠ s.minuteGen
        ∧ validTuple 9999 badTuple = false)
    ∧ (let s : State := { streaming 0 0 [.bgFinish 0] with minuteGen := 1, tasks := [⟨tuple26, false, false, 0⟩] }
       Moves (.bgFinish 0) s ∧ 0 ≠ s.minuteGen) := by decide +kernel

theorem witness_PrimeEffect :
    (Moves (.prime ⟨60, none⟩) (toy [.prime ⟨60, none⟩]) ∧ (toy []).par.lookahead = 60 ∧ (toy []).ms = .idle
      ∧ (toy []).primed = false)
    ∧ Moves (.prime ⟨60, some (tuple26, false)⟩) (toy [.prime ⟨60, some (tuple26, false)⟩])
    ∧ Moves (.prime ⟨60, some (badTuple, false)⟩) (toy [.prime ⟨60, some (badTuple, false)⟩]) := by decide +kernel

/-- Each clause at a state where the step is not enabled. -/
theorem witness_NotEnabledMovesChangeNothing :
    (Moves (.push 0#32) { toy [.push 0#32] with fifo := List.replicate 8 1#32 }
      ∧ (List.replicate 8 1#32).length = (toy []).par.fifoDepth)
    ∧ Moves .lfsrStep { toy [.lfsrStep] with n := 512 }
    ∧ (Moves .lfsrGen { toy [.lfsrGen] with n := 1, lfsr := 0x110#9 } ∧ 1 ≠ 0)
    ∧ (Moves .tabBuild (streaming 0 0 [.tabBuild]) ∧ (streaming 0 0 []).tabValid = true)
    ∧ (Moves (.activate 0) (toy [.activate 0]) ∧ (toy []).edge = false)
    ∧ (Moves .pushNext (toy [.pushNext]) ∧ (toy []).ms ≠ .streamingCurrent)
    ∧ (Moves .swap (streaming 0 0 [.swap]) ∧ (streaming 0 0 []).ms ≠ .swapping)
    ∧ (Moves (.bgStart ⟨61, none⟩) (streaming 0 0 [.bgStart ⟨61, none⟩]) ∧ 61 ≠ (streaming 0 0 []).par.lookahead)
    ∧ (Moves (.bgFinish 0) (streaming 0 0 [.bgFinish 0]) ∧ (streaming 0 0 []).tasks.length ≤ 0)
    ∧ (Moves (.prime ⟨60, none⟩) { toy [.prime ⟨60, none⟩] with primed := true }) := by decide +kernel

/-- A streaming state with the task of this minute running, about to finish it. -/
def midMinute : State :=
  { streaming 20 100 [.bgFinish 0] with bg := .bgRunning, tasks := [⟨tuple26, false, true, 0⟩] }

theorem midMinute_inv : FeederInv midMinute where
  slots := by
    intro b v h
    cases b
    · cases h
      exact ⟨tuple26, false, rfl⟩
    · cases h
  active_written := by decide
  based := by decide
  table_built := by decide
  second_bound := by decide
  word_bound := fun _ => ⟨vector26, .one, rfl, rfl, by decide⟩
  swapping := by decide
  idle := by decide
  task_gen := by decide
  task_target := by decide
  task_count := by decide
  moved_in := by decide
  base_gen := by
    intro b h
    cases h
    decide
  offset_bound := by decide
  counts := by decide

theorem witness_FeederInvariantKept : FeederInv midMinute ∧ ∃ t, step midMinute = .next t :=
  ⟨midMinute_inv, exists_next (by decide +kernel)⟩

/-- The step changes the inactive slot. -/
theorem witness_ActiveSlotNeverWritten :
    FeederInv midMinute ∧ midMinute.ms ≠ .idle ∧ (∃ t, step midMinute = .next t)
    ∧ (nextOf (step midMinute)).map (fun t => slotAt t true) = some (some vector26) ∧ slotAt midMinute true = none :=
  ⟨midMinute_inv, by decide, exists_next (by decide +kernel), by decide +kernel, by decide⟩

/-- A next state of either move, and a refusal of either. -/
theorem witness_InactiveSlotIsNotObserved :
    (nextMove (streamingTab 20 0 [.pushNext]) = .pushNext ∧ ∃ t, step (streamingTab 20 0 [.pushNext]) = .next t)
    ∧ (nextMove (started [0x801#32] []) = .tick ∧ ∃ t, step (started [0x801#32] []) = .next t)
    ∧ refusalOf (step { streaming 20 0 [.pushNext] with tabValid := false }) = some .lookupBeforeTable
    ∧ refusalOf (step (started [0#32] [])) = some .reservedCount :=
  ⟨⟨by decide, exists_next (by decide +kernel)⟩, ⟨by decide, exists_next (by decide +kernel)⟩,
    by decide +kernel, by decide +kernel⟩

/-- The last word of the minute, the minute's beginning, and a run whose moves are the background's and the clock's. -/
theorem witness_MinuteStreamIsTheSixtyLookups :
    (let s := streamingTab 59 514 [.pushNext]
     Moves .pushNext s ∧ s.ms = .streamingCurrent ∧ s.fifo.length ≠ s.par.fifoDepth ∧ s.tabValid = true
      ∧ slotAt s s.active = some vector26 ∧ EncVector 9999 vector26 ∧ vector26[s.i]? = some .minuteMark
      ∧ s.q < secondLen .minuteMark)
    ∧ (let s := streamingTab 0 0 []
       s.par.valid = true ∧ s.ms = .streamingCurrent ∧ slotAt s s.active = some vector26 ∧ s.i = 0 ∧ s.q = 0
        ∧ s.tabValid = true ∧ s.tab = tableWords s)
    ∧ (FeederInv midMinute ∧ midMinute.ms ≠ .idle
      ∧ (∀ a ∈ midMinute.agenda.take 1, a ≠ .swap ∧ ∀ w, a ≠ .push w)
      ∧ ∃ t, Host.Core.run Sys2Proof.core 1 midMinute = .next t) :=
  ⟨⟨by decide +kernel, by decide, by decide, by decide, by decide, witness_VectorInvariants, by decide, by decide⟩,
    ⟨by decide, by decide, by decide, by decide, by decide, by decide, streamingTab_tab 0 0 []⟩,
    midMinute_inv, by decide, by
      intro a ha
      change a ∈ [Action.bgFinish 0] at ha
      rw [List.mem_singleton] at ha
      subst ha
      exact ⟨by decide, fun w h => by cases h⟩,
    exists_next (by decide +kernel)⟩

/-- Each of the four errors raised in a step of its agent. -/
theorem witness_CountersRiseOnlyByTheirError :
    (nextOf (step { streaming 0 0 [.bgFinish 0] with tasks := [⟨badTuple, false, true, 0⟩] })).map State.cntInputErr
      = some 1
    ∧ (nextOf (step { streamingTab 0 0 [.pushNext] with pushedAny := true })).map State.cntUnderrun = some 1
    ∧ (nextOf (step (swapping .bgNone))).map State.cntOverrun = some 1
    ∧ (nextOf (step (streaming 0 0 [.bgStart ⟨60, none⟩]))).map State.cntTimeSrc = some 1 := by decide +kernel

/-- Steps that do change what the clauses are about: `pins` and `st`, `CLR`, the generator, `active`, a slot, the
FIFO and `pushedAny`, `bg` and `tasks`, a counter with its report, the edge. -/
theorem witness_OnlyTheWriterWrites :
    (nextOf (step (started [0x801#32] []))).map (fun t => (t.pins, t.st, t.amp)) = some (pinsP, .highHalf1, true)
    ∧ (nextOf (step (toy [.preload 6#16]))).map (fun t => (t.clr, t.clrValid)) = some (6#16, true)
    ∧ (nextOf (step (toy [.lfsrStep]))).map State.n = some 1
    ∧ (nextOf (step (swapping .bgOk))).map (fun t => (t.active, t.minuteGen, t.ms, t.i))
        = some (true, 1, .streamingCurrent, 0)
    ∧ (nextOf (step (toy [.prime ⟨60, some (tuple26, false)⟩]))).map (fun t => (t.slot0, t.timeBase))
        = some (some vector26, some ⟨tuple26, false, 0⟩)
    ∧ (nextOf (step (started [] [.push 0#32]))).map (fun t => (t.fifo, t.pushedAny)) = some ([0#32], true)
    ∧ (nextOf (step midMinute)).map (fun t => (t.bg, t.tasks)) = some (.bgOk, [])
    ∧ (nextOf (step (swapping .bgNone))).map (fun t => (t.cntOverrun, t.reports))
        = some (1, [⟨.scheduleOverrun, .generation 0⟩])
    ∧ (nextOf (step (toy [.edge]))).map State.edge = some true := by decide +kernel

theorem witness_StoresImmutableOnceBuilt :
    (streaming 0 0 []).n = 512 ∧ (streaming 0 0 []).tabValid = true ∧ ∃ t, step (streaming 0 0 [.lfsrStep]) = .next t :=
  ⟨by decide, by decide, exists_next (by decide +kernel)⟩

/-- The listed order, and `PRIME` and `PRELOAD` before the generator. -/
theorem witness_BootReachesStreaming :
    Params.worked.valid = true ∧ enc 9999 tuple26 false = .ok vector26 ∧ 59 ≤ 59
    ∧ BootOrder [.lfsrGen] Params.worked ⟨60, some (tuple26, false)⟩ 59
        (bootMoves Params.worked ⟨60, some (tuple26, false)⟩ 59)
    ∧ BootOrder [.lfsrGen] Params.worked ⟨60, some (tuple26, false)⟩ 59
        [.prime ⟨60, some (tuple26, false)⟩, .preload Params.worked.clrPreload, .lfsrGen, .tabBuild, .edge,
          .activate 59] :=
  ⟨by decide, rfl, by decide, bootMoves_order _ _ _,
    [.prime ⟨60, some (tuple26, false)⟩, .preload Params.worked.clrPreload, .lfsrGen, .tabBuild],
    by decide, by decide, rfl⟩

/-- An odd `CLOCK_MULT`, and `PHASE_TICKS` equal to a half-cycle. -/
theorem witness_ParametersOutsideConstraintsRefused :
    Params.valid { Params.toy with clockMult := 17 } = false ∧ Params.valid { Params.toy with phaseTicks := 8 } = false
    ∧ Params.valid { Params.toy with clockMult := 131074 } = true
    ∧ Params.valid { Params.toy with clockMult := 131076 } = false := by decide

end Sys2Proof.Tests
end

section
/-! Proofs of the scope statements (00_scope.md): the constraints on the parameters, and that the sequencer
accepts every word of the table. -/

namespace Sys2Proof.Machine

/-- The constraints of R5 are exactly what `Params.valid` checks. -/
theorem Params.valid_iff (p : Params) : p.valid = true ↔
    p.clockMult % 2 = 0 ∧ 2 ≤ p.halfTicks ∧ p.halfTicks - 2 < 65536 ∧ 0 < p.phaseTicks
      ∧ p.phaseTicks < p.halfTicks ∧ p.phaseTicks < 256 ∧ 0 < p.lowDriveTicks
      ∧ p.lowDriveTicks < p.halfTicks ∧ 1 ≤ p.fifoDepth := by
  simp only [Params.valid, Bool.and_eq_true, decide_eq_true_eq, beq_iff_eq, and_assoc]

/-- A step under parameters outside R5 (log entry 28). -/
theorem step_refused_of_invalid {s : State} (h : s.par.valid = false) :
    step s = .refused .parametersOutOfRange := by
  simp [step, stepWith, h]

/-- The descriptors whose words the table holds for the parameters `p` (R121 to R125; see `mem_tableWords`). -/
def tableInstrs (p : Params) : List Instr :=
  [.l100, .l200, .h100, .hs, .pmp (BitVec.ofNat 8 p.phaseTicks), .pmn (BitVec.ofNat 8 p.phaseTicks)]

/-- A chip's word is that of `PMP` or `PMN` (R125). -/
theorem chipWord_mem (p : Params) (chip : Bool) : ∃ i ∈ tableInstrs p, encode i = chipWord p chip := by
  cases chip
  · exact ⟨.pmp (BitVec.ofNat 8 p.phaseTicks), by simp [tableInstrs], rfl⟩
  · exact ⟨.pmn (BitVec.ofNat 8 p.phaseTicks), by simp [tableInstrs], rfl⟩

/-- Every word of the table is the word of one of these descriptors (R121 to R126). -/
theorem mem_tableWords {s : State} {w : Word} (h : w ∈ tableWords s) :
    ∃ i ∈ tableInstrs s.par, encode i = w := by
  simp only [tableWords, List.mem_append, List.mem_map] at h
  obtain (hFixed | ⟨k, -, rfl⟩) | ⟨k, -, rfl⟩ := h
  · simp only [List.mem_cons, List.not_mem_nil, or_false] at hFixed
    obtain rfl | rfl | rfl | rfl := hFixed <;> exact ⟨_, by simp [tableInstrs], rfl⟩
  · exact chipWord_mem _ _
  · exact chipWord_mem _ _

/-- None of them has the reserved count 0 (R154). -/
theorem cnt_ne_zero_of_mem_tableInstrs {p : Params} {i : Instr} (h : i ∈ tableInstrs p) : i.cnt ≠ 0#22 := by
  simp only [tableInstrs, List.mem_cons, List.not_mem_nil, or_false] at h
  obtain rfl | rfl | rfl | rfl | rfl | rfl := h <;> simp [Instr.cnt]

/-- None of them displaces by more than `DELTA`. -/
theorem off_le_of_mem_tableInstrs {p : Params} {i : Instr} (h : i ∈ tableInstrs p) :
    i.off.toNat ≤ p.phaseTicks := by
  simp only [tableInstrs, List.mem_cons, List.not_mem_nil, or_false] at h
  obtain rfl | rfl | rfl | rfl | rfl | rfl := h <;> simp [Instr.off, Nat.mod_le]

end Sys2Proof.Machine
end

section
open Sys2Proof Machine

/-- Settles O60: the check of R5 is the conjunction of its constraints, and `step` makes it first. -/
theorem parametersOutsideConstraintsRefused : Obligations.ParametersOutsideConstraintsRefused :=
  ⟨Params.valid_iff, fun _ => step_refused_of_invalid⟩

/-- Settles O34: a table word's offset is at most `DELTA`, which R5 puts below `H`, the nominal half-cycle at
`CLR_PRELOAD`; so R154 reserves neither its count nor its offset. -/
theorem tableWordsAreAccepted : Obligations.TableWordsAreAccepted := by
  intro s u w hp hw hclr
  obtain ⟨i, hi, rfl⟩ := mem_tableWords hw
  obtain ⟨-, -, -, -, hDelta, -⟩ := (Params.valid_iff _).1 hp
  have hOff : i.off.toNat < u.clr.toNat + 2 :=
    calc i.off.toNat ≤ s.par.phaseTicks := off_le_of_mem_tableInstrs hi
      _ < s.par.halfTicks := hDelta
      _ = u.clr.toNat + 2 := by rw [hclr, ← nominalHalf_eq, nominalHalf_clrPreload hp]
  obtain ⟨-, hCntField, hOffField, -⟩ := Laws.OpcodeBit.of_fields i
  rw [exec_decodeWord, hCntField, hOffField]
  exact ⟨_, beginDescriptor_accepted _ (cnt_ne_zero_of_mem_tableInstrs hi) (offsetReserved_of_lt hOff)⟩

end

section
/-! Who writes what (10_state.md): for each move the pieces of state it may write, and that a step changes no
other. What a step leaves alone is read off here, without looking at the move again. -/

namespace Sys2Proof.Machine

/-- `s` with the pieces of state that the move `a` may write taken from `t` (R12 to R31). -/
def takeWritten (a : Action) (s t : State) : State :=
  match a with
  | .tick => { s with st := t.st, amp := t.amp, pol := t.pol, off := t.off, x := t.x, y := t.y, e := t.e,
                      pins := t.pins, fifo := t.fifo }
  | .lfsrStep => { s with lfsr := t.lfsr, n := t.n, pat := t.pat }
  | .lfsrGen => { s with lfsr := t.lfsr, n := t.n, pat := t.pat }
  | .tabBuild => { s with tab := t.tab, tabValid := t.tabValid }
  | .preload _ => { s with clr := t.clr, clrValid := t.clrValid }
  | .prime _ => { s with slot0 := t.slot0, slot1 := t.slot1, timeBase := t.timeBase, primed := t.primed,
                         cntInputErr := t.cntInputErr, reports := t.reports }
  | .edge => { s with edge := t.edge }
  | .activate _ => { s with st := t.st, pushedAny := t.pushedAny, wasStarted := t.wasStarted, ms := t.ms, i := t.i,
                            q := t.q, startOffset := t.startOffset, edge := t.edge }
  | .pushNext => { s with fifo := t.fifo, pushedAny := t.pushedAny, ms := t.ms, i := t.i, q := t.q,
                          cntUnderrun := t.cntUnderrun, reports := t.reports }
  | .swap => { s with ms := t.ms, active := t.active, i := t.i, q := t.q, firstMinute := t.firstMinute, bg := t.bg,
                      minuteGen := t.minuteGen, cntOverrun := t.cntOverrun, reports := t.reports }
  | .bgStart _ => { s with timeBase := t.timeBase, bg := t.bg, tasks := t.tasks, cntTimeSrc := t.cntTimeSrc,
                           reports := t.reports }
  | .bgFinish _ => { s with slot0 := t.slot0, slot1 := t.slot1, bg := t.bg, tasks := t.tasks,
                            cntInputErr := t.cntInputErr, reports := t.reports }
  | .push _ => { s with fifo := t.fifo, pushedAny := t.pushedAny }
  | .start => { s with st := t.st, pushedAny := t.pushedAny, wasStarted := t.wasStarted }
  | .stop => { s with st := t.st, pins := t.pins, fifo := t.fifo, amp := t.amp, pol := t.pol, off := t.off, x := t.x,
                      y := t.y, e := t.e, free := t.free }
  | .status => s
  | .dump _ => s

/-- A move that answers a next state writes nothing but what `takeWritten` lists for it. -/
theorem act_frame {a : Action} {s t : State} (h : act exec a s = .next t) : t = takeWritten a s t := by
  cases a with
  | tick => exact (tick_frame h).1
  | lfsrStep => obtain ⟨-, rfl⟩ | ⟨-, rfl⟩ := doLfsrStep_cases h <;> rfl
  | lfsrGen => exact doLfsrGen_frame h
  | tabBuild => obtain ⟨-, rfl⟩ | ⟨-, -, rfl⟩ := doTabBuild_cases h <;> rfl
  | preload v => obtain ⟨-, rfl⟩ := doPreload_cases h; rfl
  | prime r => obtain ⟨-, rfl⟩ | ⟨-, -, _, _, -, ⟨_, -, rfl⟩ | ⟨-, rfl⟩⟩ := doPrime_cases h <;> rfl
  | edge => cases h; rfl
  | activate second => obtain ⟨-, rfl⟩ | ⟨-, -, -, -, -, -, rfl⟩ := doActivate_cases h <;> rfl
  | pushNext =>
    obtain rfl | ⟨w, ht, -⟩ := doPushNext_frame h
    · rfl
    · rw [ht]; rfl
  | swap => obtain ⟨-, rfl⟩ | ⟨-, -, rfl⟩ | ⟨-, -, rfl⟩ | ⟨-, -, -, rfl⟩ := doSwap_cases h <;> rfl
  | bgStart r =>
    obtain ⟨-, rfl⟩ | ⟨-, -, ⟨_, _, -, rfl⟩ | ⟨_, -, -, rfl⟩⟩ := doBgStart_cases h <;> rfl
  | bgFinish k =>
    obtain ⟨-, rfl⟩ | ⟨_, -, ⟨_, -, ⟨-, rfl⟩ | ⟨-, rfl⟩⟩ | ⟨-, rfl⟩⟩ := doBgFinish_cases h <;> rfl
  | push w => obtain ⟨-, rfl⟩ | ⟨-, rfl⟩ := doPush_cases h <;> rfl
  | start => exact doStart_frame h
  | stop => cases h; rfl
  | status => cases h; rfl
  | dump b => cases h; rfl

/-- The frame of a step. -/
theorem step_frame {s t : State} (h : step s = .next t) : t = takeWritten (nextMove s) (dropMove s) t :=
  act_frame (step_next h).2

end Sys2Proof.Machine
end

section
/-! Proof that every step keeps the CarrierSequencer's invariant (43_carrier_sequencer.md). -/

namespace Sys2Proof.Machine

/-- The pieces of state `SequencerInv` speaks of. -/
def sequencerPart (s : State) :=
  (s.par, s.st, s.clr, s.clrValid, s.amp, s.off, s.x, s.y, s.pins, s.fifo, s.wasStarted)

/-- `SequencerInv` depends on `sequencerPart` alone. -/
theorem SequencerInv.congr {s t : State} (hi : SequencerInv s) (h : sequencerPart t = sequencerPart s) :
    SequencerInv t := by
  simp only [sequencerPart, Prod.mk.injEq] at h
  obtain ⟨hpar, hst, hclr, hclrValid, hamp, hoff, hx, hy, hpins, hfifo, hstarted⟩ := h
  constructor <;> simp only [hpar, hst, hclr, hclrValid, hamp, hoff, hx, hy, hpins, hfifo, hstarted]
  exacts [hi.pins_legal, hi.stopped_pins, hi.preloaded, hi.started, hi.fifo_depth, hi.count_pos, hi.ticks_pos,
    hi.path, hi.last_pos]

/-! ## Half-cycles -/

/-- A first half-cycle that is not the last is shortened by the displacement (R150). -/
theorem halfLenInt_first (clr : BitVec 16) (pol : Bool) (off : BitVec 8) :
    halfLenInt clr true pol off true false = (clr.toNat + 2 : Nat) - displacement pol off := by
  simp [halfLenInt, nominalHalf_eq]

/-- A last half-cycle that is not the first is lengthened by the displacement (R150). -/
theorem halfLenInt_last (clr : BitVec 16) (pol : Bool) (off : BitVec 8) :
    halfLenInt clr true pol off false true = (clr.toNat + 2 : Nat) + displacement pol off := by
  simp [halfLenInt, nominalHalf_eq]

/-- The displacement is the offset up to its sign (R68). -/
theorem displacement_natAbs (pol : Bool) (off : BitVec 8) : (displacement pol off).natAbs = off.toNat := by
  cases pol <;> simp [displacement]

/-- The length of a half-cycle whose displacement, if it has one, is below the nominal length (R150, R154) is
positive and fits `Y`. -/
theorem halfLenInt_bounds {clr : BitVec 16} {amp : Bool} (pol : Bool) {off : BitVec 8} {first last : Bool}
    (h : amp = true → first ≠ last → off.toNat < nominalHalf clr) :
    0 < halfLenInt clr amp pol off first last ∧ halfLenInt clr amp pol off first last < 2 ^ 17 := by
  have hclr := clr.isLt
  have hoff := off.isLt
  have hdisp := displacement_natAbs pol off
  rw [nominalHalf_eq] at h
  cases amp with
  | false =>
    rw [halfLenInt_low]
    omega
  | true =>
    match first, last with
    | true, true | false, false =>
      rw [halfLenInt_same]
      omega
    | true, false =>
      have := h rfl (by decide)
      rw [halfLenInt_first]
      omega
    | false, true =>
      have := h rfl (by decide)
      rw [halfLenInt_last]
      omega

/-- So the tick counter loaded with it is not 0 (R20). -/
theorem halfLen_ne_zero {clr : BitVec 16} {amp : Bool} (pol : Bool) {off : BitVec 8} {first last : Bool}
    (h : amp = true → first ≠ last → off.toNat < nominalHalf clr) :
    halfLen clr amp pol off first last ≠ 0#17 := by
  obtain ⟨hpos, hlt⟩ := halfLenInt_bounds pol h
  obtain ⟨k, hk⟩ := Int.eq_ofNat_of_zero_le hpos.le
  rw [hk] at hpos hlt
  rw [halfLen_of_int hk, ne_eq, ← BitVec.toNat_inj, BitVec.toNat_ofNat]
  simp only [BitVec.toNat_ofNat]
  omega

@[simp] theorem isHalf_otherHalf (st : SeqState) : isHalf (otherHalf st) = isHalf st := by cases st <;> rfl

@[simp] theorem isHigh_otherHalf (st : SeqState) : isHigh (otherHalf st) = isHigh st := by cases st <;> rfl

/-- A half state is not `Stopped`. -/
theorem ne_stopped_of_isHalf {st : SeqState} (h : isHalf st = true) : st ≠ .stopped := by
  rintro rfl
  cases h

/-- A half state never drives both pins (R157). -/
theorem pinLevel_legal {s : State} (h : isHalf s.st = true) :
    pinLevel s = pinsZ ∨ pinLevel s = pinsP ∨ pinLevel s = pinsN := by
  cases hst : s.st with
  | highHalf1 => exact .inr (.inl (pinLevel_highHalf1 hst))
  | highHalf2 => exact .inr (.inr (pinLevel_highHalf2 hst))
  | lowHalf1 => rw [pinLevel_lowHalf1 hst]; split <;> simp
  | lowHalf2 => rw [pinLevel_lowHalf2 hst]; split <;> simp
  | stopped => simp [hst, isHalf] at h
  | setupDecode => simp [hst, isHalf] at h

/-! ## The moves that write the sequencer's state -/

/-- A stopped sequencer that drives no pin meets the invariant, whatever its working registers hold (R146). -/
theorem SequencerInv.of_stopped {s : State} (hst : s.st = .stopped) (hpins : s.pins = pinsZ)
    (hfifo : s.fifo.length ≤ s.par.fifoDepth) : SequencerInv s := by
  constructor <;> simp [hst, hpins, hfifo, isHalf]

/-- Between two descriptors the working registers are free too (R147). -/
theorem SequencerInv.of_setupDecode {s : State} (hst : s.st = .setupDecode)
    (hpins : s.pins = pinsZ ∨ s.pins = pinsP ∨ s.pins = pinsN) (hclr : s.clrValid = true)
    (hstarted : s.wasStarted = true) (hfifo : s.fifo.length ≤ s.par.fifoDepth) : SequencerInv s := by
  constructor <;> simp [hst, hpins, hclr, hstarted, hfifo, isHalf]

/-- The dequeue of an accepted descriptor, before its first tick (R149, R154). -/
theorem SequencerInv.latch {s : State} (hi : SequencerInv s) (hrun : s.st ≠ .stopped) {amp : Bool} (pol : Bool)
    {off : BitVec 8} {cnt : BitVec 22} (hcnt : cnt ≠ 0#22) (hoff : offsetReserved s.clr amp cnt off = false) :
    SequencerInv (latch amp pol off cnt s) where
  pins_legal := hi.pins_legal
  stopped_pins h := by cases amp <;> cases h
  preloaded _ := hi.preloaded hrun
  started _ := hi.started hrun
  fifo_depth := hi.fifo_depth
  count_pos _ := hcnt
  ticks_pos _ := by
    refine halfLen_ne_zero pol ?_
    rintro rfl hne
    refine offset_lt_of_accepted hoff ?_
    have : cnt ≠ 1#22 := by simpa using hne
    bv_omega
  path _ := by cases amp <;> rfl
  last_pos _ hamp htwo := by
    obtain rfl : amp = true := hamp
    exact offset_lt_of_accepted hoff htwo

/-- A tick of a half-cycle (R148, R149): inside it, at its end, and at the end of the descriptor. -/
theorem SequencerInv.halfTick {s : State} (hi : SequencerInv s) (hhalf : isHalf s.st = true) :
    SequencerInv (halfTick s) := by
  have hrun : s.st ≠ .stopped := ne_stopped_of_isHalf hhalf
  have hpins := pinLevel_legal hhalf
  have hx0 := hi.count_pos hhalf
  by_cases hy : s.y = 1#17
  · by_cases hx : s.x = 1#22
    · rw [halfTick_endsDescriptor hy hx]
      exact .of_setupDecode rfl hpins (hi.preloaded hrun) (hi.started hrun) hi.fifo_depth
    · have htwo : 2 ≤ s.x.toNat := by bv_omega
      rw [halfTick_endsHalf hy hx]
      exact { pins_legal := hpins
              stopped_pins := fun h => absurd h (ne_stopped_of_isHalf (by simpa using hhalf))
              preloaded := fun _ => hi.preloaded hrun
              started := fun _ => hi.started hrun
              fifo_depth := hi.fifo_depth
              count_pos := fun _ => by
                change s.x - 1#22 ≠ 0#22
                bv_omega
              ticks_pos := fun _ => halfLen_ne_zero s.pol fun hamp _ => hi.last_pos hhalf hamp htwo
              path := fun _ => by simpa using hi.path hhalf
              last_pos := fun _ hamp _ => hi.last_pos hhalf hamp htwo }
  · have hy0 := hi.ticks_pos hhalf
    rw [halfTick_inside hy]
    exact { pins_legal := hpins
            stopped_pins := fun h => absurd h hrun
            preloaded := hi.preloaded
            started := hi.started
            fifo_depth := hi.fifo_depth
            count_pos := hi.count_pos
            ticks_pos := fun _ => by
              change s.y - 1#17 ≠ 0#17
              bv_omega
            path := hi.path
            last_pos := hi.last_pos }

/-- `fifo.pop` (R46). -/
theorem SequencerInv.fifoPop {s : State} (hi : SequencerInv s) : SequencerInv (fifoPop s) :=
  { hi with fifo_depth := by simpa using Nat.le_trans (Nat.sub_le ..) hi.fifo_depth }

/-- `fifo.push` into a FIFO that is not full (R143). -/
theorem SequencerInv.fifoPush {s : State} (hi : SequencerInv s) (w : Word) (hfull : isFull s = false) :
    SequencerInv (fifoPush w s) := by
  have hne : s.fifo.length ≠ s.par.fifoDepth := by simpa [isFull] using hfull
  have hlt : s.fifo.length < s.par.fifoDepth := Nat.lt_of_le_of_ne hi.fifo_depth hne
  exact { hi with fifo_depth := by simpa using hlt }

/-- `TICK` (R148, R149). -/
theorem SequencerInv.tick {s t : State} (hi : SequencerInv s) (h : tickWith exec s = .next t) : SequencerInv t := by
  obtain ⟨-, rfl⟩ | ⟨w, rest, hst, -, hcnt, hoff, rfl⟩ | ⟨hhalf, rfl⟩ := tick_cases h
  · exact hi
  · exact (hi.fifoPop.latch (by simp [hst]) _ hcnt hoff).halfTick (by cases ampOf w <;> rfl)
  · exact hi.halfTick hhalf

/-- A permitted `START` (R145). -/
theorem SequencerInv.startSequencer {s : State} (hi : SequencerInv s) (hclr : s.clrValid = true) :
    SequencerInv (startSequencer s) := by
  obtain ⟨-, h⟩ | ⟨-, h⟩ := startSequencer_cases s <;> rw [h]
  · exact .of_setupDecode rfl hi.pins_legal hclr rfl hi.fifo_depth
  · exact hi

/-- `ACTIVATE` does to the sequencer what `START` does (R171). -/
theorem doActivate_sequencerPart {second : Nat} {s t : State} (h : doActivate second s = .next t) :
    sequencerPart t = sequencerPart s
    ∨ (s.clrValid = true ∧ sequencerPart t = sequencerPart (startSequencer s)) := by
  obtain ⟨-, rfl⟩ | ⟨-, -, -, hclr, -, -, rfl⟩ := doActivate_cases h
  · exact .inl rfl
  · refine .inr ⟨hclr, ?_⟩
    obtain ⟨hst, h⟩ | ⟨hst, h⟩ := startSequencer_cases s <;> rw [h] <;> simp [sequencerPart, hst]

/-- Every move keeps the sequencer's invariant. -/
theorem SequencerInv.act {a : Action} {s t : State} (hi : SequencerInv s) (h : act exec a s = .next t) :
    SequencerInv t := by
  cases a with
  | tick => exact hi.tick h
  | preload v =>
    obtain ⟨hst, rfl⟩ := doPreload_cases h
    exact .of_stopped hst (hi.stopped_pins hst) hi.fifo_depth
  | activate second =>
    obtain hpart | ⟨hclr, hpart⟩ := doActivate_sequencerPart h
    · exact hi.congr hpart
    · exact (hi.startSequencer hclr).congr hpart
  | pushNext =>
    obtain ⟨-, rfl⟩ | ⟨-, hfull, -⟩ := doPushNext_cases h
    · exact hi
    · obtain rfl | ⟨w, ht, -⟩ := doPushNext_frame h
      · exact hi
      · rw [ht]
        exact (hi.fifoPush w hfull).congr rfl
  | push w =>
    obtain ⟨-, rfl⟩ | ⟨hfull, rfl⟩ := doPush_cases h
    · exact hi
    · exact (hi.fifoPush w hfull).congr rfl
  | start =>
    obtain ⟨hclr, rfl⟩ := doStart_cases h
    exact hi.startSequencer hclr
  | stop =>
    rw [doStop_cases h]
    exact .of_stopped rfl rfl (Nat.zero_le _)
  | lfsrStep | lfsrGen | tabBuild | prime _ | edge | swap | bgStart _ | bgFinish _ | status | dump _ =>
    exact hi.congr ((congrArg sequencerPart (act_frame h)).trans rfl)

end Sys2Proof.Machine
end

section
/-! Proof that every step keeps the invariant of the chip generator and the descriptor table
(41_phase_chip_lfsr.md, 42_descriptor_table.md), and that neither store changes once it is built. -/

namespace Sys2Proof.Machine

/-- The pieces of state `StoreInv` speaks of. -/
def storePart (s : State) := (s.par, s.lfsr, s.n, s.pat, s.tab, s.tabValid)

/-- The table's contents depend on the parameters and the pattern alone (R125, R126). -/
theorem tableWords_congr {s t : State} (hpar : t.par = s.par) (hpat : t.pat = s.pat) :
    tableWords t = tableWords s := by
  simp only [tableWords, invAt, patAt, hpar, hpat]

/-- `StoreInv` depends on `storePart` alone. -/
theorem StoreInv.congr {s t : State} (hi : StoreInv s) (h : storePart t = storePart s) : StoreInv t := by
  simp only [storePart, Prod.mk.injEq] at h
  obtain ⟨hpar, hlfsr, hn, hpat, htab, hvalid⟩ := h
  constructor <;> simp only [hlfsr, hn, htab, hvalid, patAt, hpat, tableWords_congr hpar hpat]
  exacts [hi.chips_bound, hi.register, hi.chips, hi.table_size, hi.table]

/-- An enabled `LFSR.STEP` emits the generator's next chip; no table is valid yet (R111). -/
theorem StoreInv.lfsrStep {s : State} (hi : StoreInv s) (hn : s.n < 512) : StoreInv (lfsrStep s) where
  chips_bound := hn
  register := congrArg lfsrNext hi.register
  chips k hk := by
    rw [patAt_lfsrStep s hn]
    split
    · rename_i hkn
      rw [hkn, hi.register]
    · rename_i hkn
      exact hi.chips k (Nat.lt_of_le_of_ne (Nat.le_of_lt_succ hk) hkn)
  table_size := hi.table_size
  table hvalid := absurd (hi.table hvalid).1 hn.ne

/-- So do `k` steps within the 512 (R112). -/
theorem StoreInv.lfsrSteps {k : Nat} {s : State} (hi : StoreInv s) (hn : s.n + k ≤ 512) :
    StoreInv (lfsrSteps k s) := by
  induction k generalizing s with
  | zero => exact hi
  | succ k ih =>
    exact ih (hi.lfsrStep (by omega)) (by rw [lfsrStep_n]; omega)

/-- `TAB.BUILD` from the complete pattern (R127). -/
theorem StoreInv.tabBuild {s : State} (hi : StoreInv s) (hn : s.n = 512) :
    StoreInv { s with tab := tableWords s, tabValid := true } :=
  { hi with
    table_size := tableWords_length s
    table := fun _ => ⟨hn, rfl⟩ }

/-- Every move keeps the stores' invariant. -/
theorem StoreInv.act {a : Action} {s t : State} (hi : StoreInv s) (h : act exec a s = .next t) : StoreInv t := by
  cases a with
  | lfsrStep =>
    obtain ⟨hn, rfl⟩ | ⟨-, rfl⟩ := doLfsrStep_cases h
    · exact hi.lfsrStep hn
    · exact hi
  | lfsrGen =>
    obtain ⟨hn, -, ht⟩ | ⟨-, rfl⟩ := doLfsrGen_cases h
    · rw [ht]
      exact hi.lfsrSteps (by omega)
    · exact hi
  | tabBuild =>
    obtain ⟨-, rfl⟩ | ⟨-, hn, rfl⟩ := doTabBuild_cases h
    · exact hi
    · exact hi.tabBuild hn
  | tick | preload _ | prime _ | edge | activate _ | pushNext | swap | bgStart _ | bgFinish _ | push _ | start | stop
  | status | dump _ => exact hi.congr ((congrArg storePart (act_frame h)).trans rfl)

/-- Once 512 chips are emitted no move changes the pattern (R14, R53). -/
theorem act_keeps_pattern {a : Action} {s t : State} (h : act exec a s = .next t) (hn : s.n = 512) :
    t.n = 512 ∧ t.pat = s.pat := by
  cases a with
  | lfsrStep =>
    obtain ⟨hlt, -⟩ | ⟨-, rfl⟩ := doLfsrStep_cases h
    · omega
    · exact ⟨hn, rfl⟩
  | lfsrGen =>
    obtain ⟨hzero, -⟩ | ⟨-, rfl⟩ := doLfsrGen_cases h
    · omega
    · exact ⟨hn, rfl⟩
  | tabBuild | tick | preload _ | prime _ | edge | activate _ | pushNext | swap | bgStart _ | bgFinish _ | push _
  | start | stop | status | dump _ => rw [act_frame h]; exact ⟨hn, rfl⟩

/-- Once it is valid no move changes the table (R15, R53). -/
theorem act_keeps_table {a : Action} {s t : State} (h : act exec a s = .next t) (hvalid : s.tabValid = true) :
    t.tabValid = true ∧ t.tab = s.tab := by
  cases a with
  | tabBuild =>
    obtain ⟨-, rfl⟩ | ⟨hnot, -⟩ := doTabBuild_cases h
    · exact ⟨hvalid, rfl⟩
    · simp [hvalid] at hnot
  | lfsrStep | lfsrGen | tick | preload _ | prime _ | edge | activate _ | pushNext | swap | bgStart _ | bgFinish _
  | push _ | start | stop | status | dump _ => rw [act_frame h]; exact ⟨hvalid, rfl⟩

end Sys2Proof.Machine
end

section
/-! Proof that every step keeps the MinuteScheduler's invariant (44_minute_scheduler.md). -/

namespace Sys2Proof.Machine

/-- The pieces of state `FeederInv` speaks of. -/
def feederPart (s : State) :=
  (s.par, s.tabValid, (s.ms, s.slot0, s.slot1, s.active), (s.i, s.q, s.startOffset), (s.bg, s.tasks, s.minuteGen),
    s.timeBase, (s.cntInputErr, s.cntUnderrun, s.cntOverrun, s.cntTimeSrc, s.reports))

/-- `FeederInv` depends on `feederPart` alone. -/
theorem FeederInv.congr {s t : State} (hi : FeederInv s) (h : feederPart t = feederPart s) : FeederInv t := by
  simp only [feederPart, Prod.mk.injEq] at h
  obtain ⟨hpar, hvalid, ⟨hms, h0, h1, hactive⟩, ⟨hind, hq, hoffset⟩, ⟨hbg, htasks, hgen⟩, hbase,
    hinput, hunder, hover, htime, hreports⟩ := h
  have hslot (b : Bool) : slotAt t b = slotAt s b := by simp only [slotAt, h0, h1]
  constructor <;> simp only [hslot, hpar, hvalid, hms, hactive, hind, hq, hoffset, hbg, htasks, hgen, hbase, hinput,
    hunder, hover, htime, hreports]
  exacts [hi.slots, hi.active_written, hi.based, hi.table_built, hi.second_bound, hi.word_bound, hi.swapping, hi.idle,
    hi.task_gen, hi.task_target, hi.task_count, hi.moved_in, hi.base_gen, hi.offset_bound, hi.counts]

/-! ## Vectors, lists, counters -/

/-- A slot's vector has a symbol for every second (R61, R63). -/
theorem FeederInv.symbol_at {s : State} (hi : FeederInv s) {b : Bool} {v : TimecodeVector}
    (hv : slotAt s b = some v) {i : Nat} (hlt : i < 60) : ∃ sym, v[i]? = some sym := by
  obtain ⟨_, _, henc⟩ := hi.slots b v hv
  have hlen : i < v.length := by rwa [enc_length henc]
  exact ⟨v[i], List.getElem?_eq_getElem hlen⟩

theorem secondLen_pos (sym : Symbol) : 0 < secondLen sym := by cases sym <;> decide

/-- A move into a slot leaves every written slot written. -/
theorem slotAt_setSlot_isSome {s : State} {c : Bool} (b : Bool) (v : TimecodeVector)
    (h : (slotAt s c).isSome = true) : (slotAt (setSlot b v s) c).isSome = true := by
  rw [slotAt_setSlot]
  split
  · rfl
  · exact h

/-- Erasing a place takes its entry, and no other, out of the count of the entries that meet `p`. -/
theorem length_filter_eraseIdx {α : Type} (p : α → Bool) {l : List α} {j : Nat} {a : α} (h : l[j]? = some a) :
    (l.filter p).length = ((l.eraseIdx j).filter p).length + if p a = true then 1 else 0 := by
  obtain ⟨hj, rfl⟩ := List.getElem?_eq_some_iff.1 h
  rw [← (List.Perm.filter p (List.getElem_cons_eraseIdx_perm hj)).length_eq, List.filter_cons]
  split <;> simp [*]

/-- A counter that counts its reports does so after one more report (R209). -/
theorem bump_countP (k kind : Fault) (info : ReportInfo) (reports : List Report) :
    bump k kind (reports.countP (fun r : Report => r.kind == kind))
      = (reports ++ [(⟨k, info⟩ : Report)]).countP (fun r : Report => r.kind == kind) := by
  simp only [bump, List.countP_append, List.countP_singleton, beq_iff_eq]
  split <;> rfl

/-! ## The operations the moves are made of -/

/-- Raising an error (R209). -/
theorem FeederInv.raiseError {s : State} (hi : FeederInv s) (k : Fault) (info : ReportInfo) :
    FeederInv (raiseError k info s) := by
  obtain ⟨hinput, hunder, hover, htime⟩ := hi.counts
  refine { hi with counts := ?_ }
  simp only [raiseError_cntInputErr, raiseError_cntUnderrun, raiseError_cntOverrun, raiseError_cntTimeSrc,
    raiseError_reports, hinput, hunder, hover, htime, bump_countP k _ info, and_self]

/-- The sample of `empty` before a push (R180). -/
theorem FeederInv.sampleEmpty {s : State} (hi : FeederInv s) : FeederInv (sampleEmpty s) := by
  obtain ⟨-, -, h⟩ | ⟨-, h⟩ := sampleEmpty_cases s <;> rw [h]
  · exact hi.raiseError _ _
  · exact hi

/-- A reading of the time source (R175, R233). -/
theorem FeederInv.setTimeBase {s : State} (hi : FeederInv s) (t : TimeTuple) (d : Bool) {g : Nat}
    (hg : g ≤ s.minuteGen) : FeederInv (setTimeBase t d g s) :=
  { hi with
    based := fun _ => rfl
    base_gen := by rintro b ⟨⟩; exact hg }

/-- A move of an `ENC` result into a slot: the inactive one (R178), or, before activation, the active one with a
time base (R233). -/
theorem FeederInv.setSlot {s : State} (hi : FeederInv s) {b : Bool} {v : TimecodeVector}
    (hv : EncVector s.par.yearMax v) (hb : s.active = b → s.ms = .idle ∧ s.timeBase.isSome = true) :
    FeederInv (setSlot b v s) :=
  { hi with
    slots := by
      intro c u hu
      rw [slotAt_setSlot] at hu
      split at hu
      · cases hu
        exact hv
      · exact hi.slots c u hu
    active_written := fun hm => slotAt_setSlot_isSome b v (hi.active_written hm)
    based := by
      intro hw
      by_cases hactive : s.active = b
      · exact (hb hactive).2
      · rw [slotAt_setSlot] at hw
        exact hi.based (by simpa [hactive] using hw)
    word_bound := by
      intro hm
      have hactive : s.active ≠ b := fun hactive => by simp [(hb hactive).1] at hm
      obtain ⟨u, sym, hu, hrest⟩ := hi.word_bound hm
      exact ⟨u, sym, by rw [slotAt_setSlot]; simpa [hactive] using hu, hrest⟩
    moved_in := fun hbg => slotAt_setSlot_isSome b v (hi.moved_in hbg) }

/-- The start of this minute's task (R175): there was none, and it targets the inactive slot. -/
theorem FeederInv.startTask {s : State} (hi : FeederInv s) (hm : s.ms = .streamingCurrent) (hbg : s.bg = .bgNone)
    (t : TimeTuple) (d : Bool) : FeederInv (startTask t d s) :=
  { hi with
    idle := fun h => by simp [hm] at h
    task_gen := by
      simp only [startTask_tasks, List.mem_append, List.mem_singleton]
      rintro k (hk | rfl)
      · exact hi.task_gen k hk
      · exact Nat.le_refl _
    task_target := by
      simp only [startTask_tasks, List.mem_append, List.mem_singleton]
      rintro k (hk | rfl) hgen
      · exact hi.task_target k hk hgen
      · rfl
    task_count := by
      have hnone := hi.task_count
      rw [hbg] at hnone
      simpa using hnone
    moved_in := nofun }

/-- The end of a task: one of this minute ends the running build, and is moved in if the build is to be called
finished; a late one leaves `bg` as it is (R177, R179, R182). -/
theorem FeederInv.finishTask {s : State} (hi : FeederInv s) {j : Nat} {k : Task} (hk : s.tasks[j]? = some k)
    {bg : BgState}
    (hcurrent : k.gen = s.minuteGen → bg ≠ .bgRunning ∧ (bg = .bgOk → (slotAt s (!s.active)).isSome = true))
    (hlate : k.gen ≠ s.minuteGen → bg = s.bg) :
    FeederInv { s with tasks := s.tasks.eraseIdx j, bg := bg } :=
  { hi with
    idle := fun hm => by simp [(hi.idle hm).1] at hk
    task_gen := fun k' hk' => hi.task_gen k' (List.mem_of_mem_eraseIdx hk')
    task_target := fun k' hk' => hi.task_target k' (List.mem_of_mem_eraseIdx hk')
    task_count := by
      have hcount := hi.task_count
      rw [length_filter_eraseIdx _ hk] at hcount
      by_cases hgen : k.gen = s.minuteGen
      · have hone : s.bg = .bgRunning := by
          by_contra hne
          simp [hgen, hne] at hcount
        simpa [hgen, hone, (hcurrent hgen).1] using hcount
      · simpa [hgen, hlate hgen] using hcount
    moved_in := by
      intro hok
      by_cases hgen : k.gen = s.minuteGen
      · exact (hcurrent hgen).2 hok
      · exact hi.moved_in ((hlate hgen).symm.trans hok) }

/-- The indices after a push (R172). -/
theorem FeederInv.advanceIndices {s : State} (hi : FeederInv s) (hm : s.ms = .streamingCurrent)
    {v : TimecodeVector} {sym : Symbol} (hv : slotAt s s.active = some v) (hsym : v[s.i]? = some sym)
    (hq : s.q < secondLen sym) : FeederInv (advanceIndices (secondLen sym) s) := by
  obtain ⟨hin, h⟩ | ⟨-, hi59, h⟩ | ⟨-, hi59, h⟩ := advanceIndices_cases (secondLen sym) s <;> rw [h]
  · exact { hi with
            word_bound := fun _ => ⟨v, sym, hv, hsym, Nat.lt_of_le_of_ne hq hin⟩
            swapping := fun h => by simp [hm] at h }
  · have hlt : s.i < 59 := Nat.lt_of_le_of_ne hi.second_bound hi59
    obtain ⟨sym', hsym'⟩ := hi.symbol_at hv (Nat.succ_lt_succ hlt)
    exact { hi with
            second_bound := hlt
            word_bound := fun _ => ⟨v, sym', hv, hsym', secondLen_pos sym'⟩
            swapping := fun h => by simp [hm] at h }
  · have hne : s.ms ≠ .idle := by simp [hm]
    exact { hi with
            active_written := fun _ => hi.active_written hne
            table_built := fun _ => hi.table_built hne
            word_bound := nofun
            swapping := fun _ => ⟨hi59, rfl⟩
            idle := nofun }

/-- The next minute begins on a written slot (R174): the tasks so far are of minutes past. -/
theorem FeederInv.nextMinute {s : State} (hi : FeederInv s) (hm : s.ms ≠ .idle) {b : Bool}
    (hb : (slotAt s b).isSome = true) : FeederInv (nextMinute { s with active := b }) :=
  have hpast : ∀ k ∈ s.tasks, k.gen ≠ s.minuteGen + 1 := fun k hk =>
    (Nat.lt_succ_of_le (hi.task_gen k hk)).ne
  { hi with
    active_written := fun _ => hb
    based := fun _ => hi.based (hi.active_written hm)
    table_built := fun _ => hi.table_built hm
    second_bound := Nat.zero_le _
    word_bound := by
      intro _
      obtain ⟨v, hv⟩ := Option.isSome_iff_exists.1 hb
      obtain ⟨sym, hsym⟩ := hi.symbol_at hv (by decide : 0 < 60)
      exact ⟨v, sym, hv, hsym, secondLen_pos sym⟩
    swapping := nofun
    idle := nofun
    task_gen := fun k hk => Nat.le_succ_of_le (hi.task_gen k hk)
    task_target := fun k hk hgen => absurd hgen (hpast k hk)
    task_count := by simpa using hpast
    moved_in := nofun
    base_gen := fun b hb => Nat.le_succ_of_le (hi.base_gen b hb) }

/-! ## The moves -/

/-- `PRIME` (R233). -/
theorem FeederInv.prime {r : TsAnswer} {s t : State} (hi : FeederInv s) (h : doPrime r s = .next t) :
    FeederInv t := by
  obtain ⟨-, rfl⟩ | ⟨hm, -, tt, d, -, ⟨v, hv, rfl⟩ | ⟨-, rfl⟩⟩ := doPrime_cases h
  · exact hi
  all_goals
    have hread : FeederInv { Machine.setTimeBase tt d 0 s with primed := true } :=
      (hi.setTimeBase tt d (Nat.zero_le _)).congr rfl
  · exact hread.setSlot ⟨tt, d, hv⟩ fun _ => ⟨hm, rfl⟩
  · exact hread.raiseError _ _

/-- `ACTIVATE` (R171). -/
theorem FeederInv.activate {second : Nat} {s t : State} (hi : FeederInv s) (h : doActivate second s = .next t) :
    FeederInv t := by
  obtain ⟨-, rfl⟩ | ⟨-, hwritten, hvalid, -, -, hsec, rfl⟩ := doActivate_cases h
  · exact hi
  · exact { hi with
            active_written := fun _ => hwritten
            table_built := fun _ => hvalid
            second_bound := Nat.le_of_lt_succ hsec
            word_bound := by
              intro _
              obtain ⟨v, hv⟩ := Option.isSome_iff_exists.1 hwritten
              obtain ⟨sym, hsym⟩ := hi.symbol_at hv hsec
              exact ⟨v, sym, hv, hsym, secondLen_pos sym⟩
            swapping := nofun
            idle := nofun
            offset_bound := Nat.le_of_lt_succ hsec }

/-- `PUSHNEXT` (R172). -/
theorem FeederInv.pushNext {s t : State} (hi : FeederInv s) (h : doPushNext s = .next t) : FeederInv t := by
  obtain ⟨-, rfl⟩ | ⟨hm, -, v, sym, w, hv, hsym, -, hw, rfl⟩ := doPushNext_cases h
  · exact hi
  · have hq : s.q < secondLen sym := by
      obtain ⟨hlt, -⟩ := List.getElem?_eq_some_iff.1 hw
      rwa [secondWords_length] at hlt
    have hpushed : FeederInv (streamWord w (Machine.sampleEmpty s)) := hi.sampleEmpty.congr rfl
    refine hpushed.advanceIndices (v := v) ?_ ?_ ?_ ?_ <;> rw [(sampleEmpty_frame s).1]
    exacts [hm, hv, hsym, hq]

/-- `SWAP` (R174). -/
theorem FeederInv.swap {s t : State} (hi : FeederInv s) (h : doSwap s = .next t) : FeederInv t := by
  obtain ⟨-, rfl⟩ | ⟨hm, hbg, rfl⟩ | ⟨hm, -, rfl⟩ | ⟨hm, -, hwritten, rfl⟩ := doSwap_cases h
  · exact hi
  all_goals have hne : s.ms ≠ .idle := by simp [hm]
  · exact hi.nextMinute hne (hi.moved_in hbg)
  · exact hi.nextMinute hne (hi.active_written hne)
  · exact (hi.raiseError _ _).nextMinute hne hwritten

/-- `BG.START` (R175, R181). -/
theorem FeederInv.bgStart {r : TsAnswer} {s t : State} (hi : FeederInv s) (h : doBgStart r s = .next t) :
    FeederInv t := by
  obtain ⟨-, rfl⟩ | ⟨hm, hbg, ⟨tt, d, -, rfl⟩ | ⟨b, -, -, rfl⟩⟩ := doBgStart_cases h
  · exact hi
  · exact (hi.setTimeBase tt d (Nat.le_refl _)).startTask hm hbg tt d
  · exact (hi.raiseError _ _).startTask hm hbg _ _

/-- `BG.FINISH` (R177 to R179, R182). -/
theorem FeederInv.bgFinish {j : Nat} {s t : State} (hi : FeederInv s) (h : doBgFinish j s = .next t) :
    FeederInv t := by
  obtain ⟨-, rfl⟩ | ⟨k, hk, ⟨v, hv, ⟨hgen, rfl⟩ | ⟨hgen, rfl⟩⟩ | ⟨-, rfl⟩⟩ := doBgFinish_cases h
  · exact hi
  · have htarget : k.target = !s.active := hi.task_target k (List.mem_of_getElem? hk) hgen
    have hmoved : FeederInv (Machine.setSlot k.target v s) :=
      hi.setSlot ⟨_, _, hv⟩ fun h => by simp [htarget] at h
    exact hmoved.finishTask hk (fun _ => ⟨nofun, fun _ => by simp [htarget]⟩) (absurd hgen)
  · exact hi.finishTask hk (fun h => absurd h hgen) fun _ => rfl
  · exact (hi.raiseError _ _).finishTask hk (fun (h : k.gen = s.minuteGen) => by simp [h])
      fun (h : k.gen ≠ s.minuteGen) => if_neg h

/-- Every move keeps the feeder's invariant. -/
theorem FeederInv.act {a : Action} {s t : State} (hi : FeederInv s) (h : act exec a s = .next t) : FeederInv t := by
  cases a with
  | prime r => exact hi.prime h
  | activate second => exact hi.activate h
  | pushNext => exact hi.pushNext h
  | swap => exact hi.swap h
  | bgStart r => exact hi.bgStart h
  | bgFinish k => exact hi.bgFinish h
  | tabBuild =>
    obtain ⟨-, rfl⟩ | ⟨-, -, rfl⟩ := doTabBuild_cases h
    · exact hi
    · exact { hi with table_built := fun _ => rfl }
  | tick | lfsrStep | lfsrGen | preload _ | edge | push _ | start | stop | status | dump _ =>
    exact hi.congr ((congrArg feederPart (act_frame h)).trans rfl)

end Sys2Proof.Machine
end

section
/-! The error counters (60_exceptions.md): which move can raise which error, and that a counter rises in no other. -/

namespace Sys2Proof.Machine

/-- The counters of R30. -/
def counters (s : State) := (s.cntInputErr, s.cntUnderrun, s.cntOverrun, s.cntTimeSrc)

/-- The moves that can raise an error of the kind (R201 to R204). -/
def canRaise : Fault → Action → Prop
  | .protocolInputError, a => (∃ k, a = .bgFinish k) ∨ ∃ r, a = .prime r
  | .queueUnderrun, a => a = .pushNext
  | .scheduleOverrun, a => a = .swap
  | .timeSourceUnavailable, a => ∃ r, a = .bgStart r

/-- A move leaves the counters alone, or they rise as by one error that is its own to raise (whatever the report
carries beside the kind). -/
theorem act_counters {a : Action} {s t : State} (h : act exec a s = .next t) :
    counters t = counters s ∨ ∃ k, canRaise k a ∧ counters t = counters (raiseError k .nothing s) := by
  cases a with
  | prime r =>
    obtain ⟨-, rfl⟩ | ⟨-, -, _, _, -, ⟨_, -, rfl⟩ | ⟨-, rfl⟩⟩ := doPrime_cases h
    · exact .inl rfl
    · exact .inl rfl
    · exact .inr ⟨.protocolInputError, .inr ⟨r, rfl⟩, rfl⟩
  | pushNext =>
    obtain ⟨-, rfl⟩ | ⟨-, -, _, sym, _, -, -, -, -, rfl⟩ := doPushNext_cases h
    · exact .inl rfl
    · rw [advanceIndices_frame (secondLen sym)]
      obtain ⟨-, -, hsample⟩ | ⟨-, hsample⟩ := sampleEmpty_cases s <;> rw [hsample]
      · exact .inr ⟨.queueUnderrun, rfl, rfl⟩
      · exact .inl rfl
  | swap =>
    obtain ⟨-, rfl⟩ | ⟨-, -, rfl⟩ | ⟨-, -, rfl⟩ | ⟨-, -, -, rfl⟩ := doSwap_cases h
    · exact .inl rfl
    · exact .inl rfl
    · exact .inl rfl
    · exact .inr ⟨.scheduleOverrun, rfl, rfl⟩
  | bgStart r =>
    obtain ⟨-, rfl⟩ | ⟨-, -, ⟨_, _, -, rfl⟩ | ⟨_, -, -, rfl⟩⟩ := doBgStart_cases h
    · exact .inl rfl
    · exact .inl rfl
    · exact .inr ⟨.timeSourceUnavailable, ⟨r, rfl⟩, rfl⟩
  | bgFinish j =>
    obtain ⟨-, rfl⟩ | ⟨_, -, ⟨_, -, ⟨-, rfl⟩ | ⟨-, rfl⟩⟩ | ⟨-, rfl⟩⟩ := doBgFinish_cases h
    · exact .inl rfl
    · exact .inl rfl
    · exact .inl rfl
    · exact .inr ⟨.protocolInputError, .inl ⟨j, rfl⟩, rfl⟩
  | tick | lfsrStep | lfsrGen | tabBuild | preload _ | edge | activate _ | push _ | start | stop | status | dump _ =>
    exact .inl ((congrArg counters (act_frame h)).trans rfl)

/-- Counter by counter: a step keeps it, or adds one to it if its move can raise the error. -/
theorem step_counters {s t : State} (h : step s = .next t) :
    (t.cntInputErr = s.cntInputErr ∨ (t.cntInputErr = s.cntInputErr + 1 ∧ canRaise .protocolInputError (nextMove s)))
    ∧ (t.cntUnderrun = s.cntUnderrun ∨ (t.cntUnderrun = s.cntUnderrun + 1 ∧ canRaise .queueUnderrun (nextMove s)))
    ∧ (t.cntOverrun = s.cntOverrun ∨ (t.cntOverrun = s.cntOverrun + 1 ∧ canRaise .scheduleOverrun (nextMove s)))
    ∧ (t.cntTimeSrc = s.cntTimeSrc
        ∨ (t.cntTimeSrc = s.cntTimeSrc + 1 ∧ canRaise .timeSourceUnavailable (nextMove s))) := by
  obtain hkept | ⟨k, hraise, hraised⟩ := act_counters (step_next h).2
  · simp only [counters, Prod.mk.injEq] at hkept
    simp [hkept]
  · simp only [counters, Prod.mk.injEq] at hraised
    cases k <;> simp [hraise, hraised, bump]

end Sys2Proof.Machine
end

section
/-! The state after reset (R34) meets the three invariants, whatever the parameters. -/

namespace Sys2Proof.Machine

/-- The sequencer is stopped and drives no pin. -/
theorem reset_sequencerInv (p : Params) : SequencerInv { State.reset with par := p } :=
  .of_stopped rfl rfl (Nat.zero_le _)

/-- No chip has been emitted, and no table built. -/
theorem reset_storeInv (p : Params) : StoreInv { State.reset with par := p } where
  chips_bound := Nat.zero_le _
  register := rfl
  chips := nofun
  table_size := List.length_replicate
  table := nofun

/-- The feeder is idle, and both slots are empty. -/
theorem reset_feederInv (p : Params) : FeederInv { State.reset with par := p } where
  slots b v h := by cases b <;> cases h
  active_written h := absurd rfl h
  based := nofun
  table_built h := absurd rfl h
  second_bound := Nat.zero_le _
  word_bound := nofun
  swapping := nofun
  idle _ := ⟨rfl, rfl, rfl⟩
  task_gen := nofun
  task_target := nofun
  task_count := rfl
  moved_in := nofun
  base_gen := nofun
  offset_bound := Nat.zero_le _
  counts := ⟨rfl, rfl, rfl, rfl⟩

/-- The stores have their shape at reset whatever the parameters: the FIFO is empty. -/
theorem reset_memory_wf_of_params (p : Params) : Memory.wf { State.reset with par := p } = true := by
  obtain ⟨htab, h0, h1, -, hn⟩ := (Memory.wf_iff _).1 reset_memory_wf
  exact (Memory.wf_iff _).2 ⟨htab, h0, h1, Nat.zero_le _, hn⟩

end Sys2Proof.Machine
end

section
open Sys2Proof Machine

/-! The settled statements of 10_state.md. A step is a move in the state without its place in the agenda, and an
invariant does not see the agenda; so what every move keeps every step keeps. -/

/-- Settles O21: by `SequencerInv.act`. -/
theorem sequencerInvariantKept : Obligations.SequencerInvariantKept := fun _ _ hi h =>
  (hi.congr rfl : SequencerInv (dropMove _)).act (step_next h).2

/-- Settles O35: by `StoreInv.act`. -/
theorem storeInvariantKept : Obligations.StoreInvariantKept := fun _ _ hi h =>
  (hi.congr rfl : StoreInv (dropMove _)).act (step_next h).2

/-- Settles O49: by `FeederInv.act`. -/
theorem feederInvariantKept : Obligations.FeederInvariantKept := fun _ _ hi h =>
  (hi.congr rfl : FeederInv (dropMove _)).act (step_next h).2

/-- Settles O54: each counter stays, or goes up by one in a step that can raise its error. -/
theorem countersRiseOnlyByTheirError : Obligations.CountersRiseOnlyByTheirError := by
  intro s t h
  obtain ⟨hinput, hunder, hover, htime⟩ := step_counters h
  refine ⟨by omega, by omega, by omega, by omega, ?_, ?_, ?_, ?_⟩ <;> intro hne
  · exact (hinput.resolve_left hne).2
  · exact (hunder.resolve_left hne).2
  · exact (hover.resolve_left hne).2
  · exact (htime.resolve_left hne).2

/-- Settles O55: each clause is read off the step's frame, move by move. -/
theorem onlyTheWriterWrites : Obligations.OnlyTheWriterWrites := by
  intro s t h
  rw [step_frame h]
  cases nextMove s <;> simp [takeWritten]

/-- Settles O56: complete, the pattern has no enabled generator step left; valid, the table is not built again. -/
theorem storesImmutableOnceBuilt : Obligations.StoresImmutableOnceBuilt := by
  intro s t h
  have hact := (step_next h).2
  exact ⟨act_keeps_pattern (s := dropMove s) hact, act_keeps_table (s := dropMove s) hact⟩

/-- Settles O57: the values of `State.reset`. -/
theorem resetState : Obligations.ResetState := by
  unfold Obligations.ResetState
  decide

/-- Settles O58: a stopped sequencer, an empty store and an idle feeder, whatever the parameters. -/
theorem resetMeetsInvariants : Obligations.ResetMeetsInvariants := fun p =>
  ⟨reset_sequencerInv p, reset_storeInv p, reset_feederInv p, reset_memory_wf_of_params p⟩

end

section
/-! What the moves do to the FIFO, the descriptor table and the slots (20_memory.md). -/

namespace Sys2Proof.Machine

/-! ## The FIFO (R46, R52) -/

/-- Everything a move can do to the FIFO: leave it, append at the tail, remove the head, or clear it. -/
theorem act_fifo {a : Action} {s t : State} (h : act exec a s = .next t) :
    t.fifo = s.fifo
    ∨ (∃ w, t.fifo = s.fifo ++ [w] ∧ (a = .push w ∨ a = .pushNext))
    ∨ (∃ w, s.fifo = w :: t.fifo ∧ a = .tick ∧ s.st = .setupDecode)
    ∨ (t.fifo = [] ∧ a = .stop) := by
  cases a with
  | tick =>
    obtain ⟨-, hkept | ⟨hst, w, hw⟩⟩ := tick_frame h
    · exact .inl hkept
    · exact .inr (.inr (.inl ⟨w, hw, rfl, hst⟩))
  | pushNext =>
    obtain rfl | ⟨w, ht, -⟩ := doPushNext_frame h
    · exact .inl rfl
    · exact .inr (.inl ⟨w, congrArg State.fifo ht, .inr rfl⟩)
  | push w =>
    obtain ⟨-, rfl⟩ | ⟨-, rfl⟩ := doPush_cases h
    · exact .inl rfl
    · exact .inr (.inl ⟨w, rfl, .inl rfl⟩)
  | stop =>
    rw [doStop_cases h]
    exact .inr (.inr (.inr ⟨rfl, rfl⟩))
  | lfsrStep | lfsrGen | tabBuild | preload _ | prime _ | edge | activate _ | swap | bgStart _ | bgFinish _ | start
  | status | dump _ => exact .inl ((congrArg State.fifo (act_frame h)).trans rfl)

/-! ## The table (R41, R121 to R127) -/

/-- `TAB.BUILD` before the pattern is complete (R127). -/
theorem doTabBuild_of_incomplete {s : State} (hvalid : s.tabValid = false) (hn : s.n ≠ 512) :
    doTabBuild s = .refused .tableBeforePattern := by
  simp [doTabBuild, patDone, Config.chipCount, hvalid, hn]

/-- The one `TAB.BUILD` that writes (R127). -/
theorem doTabBuild_of_complete {s : State} (hvalid : s.tabValid = false) (hn : s.n = 512) :
    doTabBuild s = .next { s with tab := tableWords s, tabValid := true } := by
  simp [doTabBuild, patDone, Config.chipCount, hvalid, hn]

/-- The value of a chip's word: `HI 240` with `off = DELTA`, the chip being its polarity (R66, R125). -/
theorem chipWord_toNat {p : Params} (hp : p.valid = true) (chip : Bool) :
    (chipWord p chip).toNat = 240 * 1024 + p.phaseTicks * 4 + chip.toNat * 2 + 1 := by
  obtain ⟨-, -, -, -, -, hDelta, -⟩ := (Params.valid_iff p).1 hp
  have hoff : (BitVec.ofNat 8 p.phaseTicks).toNat = p.phaseTicks := Nat.mod_eq_of_lt hDelta
  cases chip <;> simp [chipWord, encode, packFields_toNat, Instr.cnt, Instr.off, Instr.pol, Instr.amp, hoff]

section
variable {s t : State} (ht : t.tab = tableWords s)
include ht

/-- The four fixed words stand at the indices 0 to 3 (R41, R121 to R124). -/
theorem tabAt_fixed : tabAt t 0 = encode .l100 ∧ tabAt t 1 = encode .l200 ∧ tabAt t 2 = encode .h100
    ∧ tabAt t 3 = encode .hs := by
  simp only [tabAt, ht]
  exact ⟨rfl, rfl, rfl, rfl⟩

/-- The words of the pattern stand from index 4 on (R41, R126). -/
theorem tabAt_pat {k : Nat} (hk : k < 512) : tabAt t (4 + k) = chipWord s.par (patAt s k) := by
  rw [Nat.add_comm]
  simp [tabAt, ht, tableWords, Config.chipCount, List.getElem?_append, hk]

/-- The words of the inverted pattern stand from index 516 on (R41, R126). -/
theorem tabAt_inv {k : Nat} (hk : k < 512) : tabAt t (516 + k) = chipWord s.par (invAt s k) := by
  rw [Nat.add_comm]
  simp [tabAt, ht, tableWords, Config.chipCount, List.getElem?_append, hk]

end

/-! ## The slots (R48, R50, R183) -/

/-- A move that writes a slot moves one whole `ENC` result in: `PRIME`, before activation, or `BG.FINISH`, into the
slot that this minute's task targets; `active` stays. -/
theorem act_slots {a : Action} {s t : State} (h : act exec a s = .next t) :
    (∀ b, slotAt t b = slotAt s b)
    ∨ ∃ b v, EncVector s.par.yearMax v ∧ (∀ c, slotAt t c = slotAt (setSlot b v s) c) ∧ t.active = s.active
        ∧ (s.ms = .idle ∨ ∃ k ∈ s.tasks, k.gen = s.minuteGen ∧ k.target = b) := by
  cases a with
  | prime r =>
    obtain ⟨-, rfl⟩ | ⟨hm, -, tt, d, -, ⟨v, hv, rfl⟩ | ⟨-, rfl⟩⟩ := doPrime_cases h
    · exact .inl fun _ => rfl
    · exact .inr ⟨s.active, v, ⟨tt, d, hv⟩, fun _ => rfl, rfl, .inl hm⟩
    · exact .inl fun _ => rfl
  | bgFinish j =>
    obtain ⟨-, rfl⟩ | ⟨k, hk, ⟨v, hv, ⟨hgen, rfl⟩ | ⟨-, rfl⟩⟩ | ⟨-, rfl⟩⟩ := doBgFinish_cases h
    · exact .inl fun _ => rfl
    · exact .inr ⟨k.target, v, ⟨_, _, hv⟩, fun _ => rfl, rfl, .inr ⟨k, List.mem_of_getElem? hk, hgen, rfl⟩⟩
    · exact .inl fun _ => rfl
    · exact .inl fun _ => rfl
  | tick | lfsrStep | lfsrGen | tabBuild | preload _ | edge | activate _ | pushNext | swap | bgStart _ | push _
  | start | stop | status | dump _ => exact .inl fun b => (congrArg (slotAt · b) (act_frame h)).trans rfl

/-- After activation the slot a move writes is the inactive one (R48, R178). -/
theorem FeederInv.act_slots {a : Action} {s t : State} (hi : FeederInv s) (hm : s.ms ≠ .idle)
    (h : Machine.act exec a s = .next t) :
    slotAt t s.active = slotAt s s.active
    ∧ (slotAt t (!s.active) = slotAt s (!s.active)
        ∨ ∃ v, slotAt t (!s.active) = some v ∧ EncVector s.par.yearMax v ∧ t.active = s.active) := by
  obtain hkept | ⟨b, v, hv, hslots, hactive, hidle | ⟨k, hk, hgen, rfl⟩⟩ := Machine.act_slots h
  · exact ⟨hkept _, .inl (hkept _)⟩
  · exact absurd hidle hm
  · rw [hi.task_target k hk hgen] at hslots
    exact ⟨by simp [hslots, slotAt_setSlot], .inr ⟨v, by simp [hslots], hv, hactive⟩⟩

end Sys2Proof.Machine
end

section
/-! Replacing a slot that is not the active one commutes with `PUSHNEXT` and with the clock (R48). -/

namespace Sys2Proof.Machine

/-- A result with its next state, if it has one, changed by `f`. -/
def mapNext (f : State → State) : Result → Result
  | .next t => .next (f t)
  | .fault r => .fault r
  | .refused r => .refused r

section
variable (b : Bool) (v : TimecodeVector) (s : State)

/-! ## The clock -/

theorem beginDescriptor_setSlot (amp pol : Bool) (off : BitVec 8) (cnt : BitVec 22) :
    beginDescriptor amp pol off cnt (setSlot b v s) = mapNext (setSlot b v) (beginDescriptor amp pol off cnt s) := by
  simp only [beginDescriptor, apply_ite (mapNext (setSlot b v))]
  rfl

/-- The clock looks at neither slot. -/
theorem tickWith_setSlot : tickWith exec (setSlot b v s) = mapNext (setSlot b v) (tickWith exec s) := by
  simp only [tickWith, setSlot_st, setSlot_fifo]
  cases s.st with
  | setupDecode =>
    cases s.fifo with
    | nil => rfl
    | cons w rest =>
      simp only [exec_decodeWord]
      exact beginDescriptor_setSlot b v (fifoPop s) ..
  | stopped | highHalf1 | highHalf2 | lowHalf1 | lowHalf2 => rfl

/-! ## `PUSHNEXT` -/

theorem sampleEmpty_setSlot : sampleEmpty (setSlot b v s) = setSlot b v (sampleEmpty s) := by
  simp only [sampleEmpty, apply_ite (setSlot b v)]
  rfl

theorem advanceIndices_setSlot (len : Nat) :
    advanceIndices len (setSlot b v s) = setSlot b v (advanceIndices len s) := by
  simp only [advanceIndices, apply_ite (setSlot b v)]
  rfl

/-- The second being streamed is read from the active slot alone (R172). -/
theorem currentSecond_setSlot_inactive : currentSecond (setSlot (!s.active) v s) = currentSecond s := by
  have hslot : slotAt (setSlot (!s.active) v s) s.active = slotAt s s.active := by simp [slotAt_setSlot]
  have hlookup (sym : Symbol) : lookup (setSlot (!s.active) v s) sym s.i = lookup s sym s.i := rfl
  simp only [currentSecond, setSlot_active, setSlot_i, hslot, hlookup]

theorem doPushNext_setSlot_inactive :
    doPushNext (setSlot (!s.active) v s) = mapNext (setSlot (!s.active) v) (doPushNext s) := by
  have henabled : pushNextEnabled (setSlot (!s.active) v s) = pushNextEnabled s := rfl
  simp only [doPushNext, henabled, currentSecond_setSlot_inactive, setSlot_q, sampleEmpty_setSlot]
  split
  · cases currentSecond s with
    | error r => rfl
    | ok seq =>
      cases hw : seq[s.q]? with
      | none => simp only [hw]; rfl
      | some w =>
        simp only [hw]
        exact congrArg Host.Outcome.next (advanceIndices_setSlot _ v (streamWord w (sampleEmpty s)) _)
  · rfl

/-! ## The step -/

/-- A step that is the move of the streaming context or of the clock commutes with the replacement. -/
theorem step_setSlot_inactive (h : nextMove s = .pushNext ∨ nextMove s = .tick) :
    step (setSlot (!s.active) v s) = mapNext (setSlot (!s.active) v) (step s) := by
  have hmove : nextMove (setSlot (!s.active) v s) = nextMove s := rfl
  simp only [step, stepWith, setSlot_par, hmove]
  split
  · obtain h | h := h <;> rw [h]
    · exact doPushNext_setSlot_inactive v (dropMove s)
    · exact tickWith_setSlot _ v (dropMove s)
  · rfl

end

end Sys2Proof.Machine
end

section
open Sys2Proof Machine

/-! The settled statements of 20_memory.md. -/

/-- Settles O27: by `act_fifo`. -/
theorem fifoKeepsOrder : Obligations.FifoKeepsOrder := fun s _ h => act_fifo (s := dropMove s) (step_next h).2

/-- Settles O31: the table's words are read at their indices, and their values from their fields. -/
theorem tableBuildContents : Obligations.TableBuildContents := by
  intro s hmoves hvalid
  rw [step_of_moves hmoves]
  refine ⟨doTabBuild_of_incomplete (s := dropMove s) hvalid, fun hn => ?_⟩
  refine ⟨_, doTabBuild_of_complete (s := dropMove s) hvalid hn, rfl, tableWords_length _, ?_⟩
  obtain ⟨hl100, hl200, hh100, hhs⟩ := tabAt_fixed
    (t := { dropMove s with tab := tableWords (dropMove s), tabValid := true }) rfl
  refine ⟨hl100, hl200, hh100, hhs, fun k hk => ⟨?_, ?_⟩⟩
  · rw [tabAt_pat rfl hk]
    exact chipWord_toNat hmoves.1 _
  · rw [tabAt_inv rfl hk]
    exact chipWord_toNat hmoves.1 _

/-- Settles O50: a slot a step writes is the inactive one, and what it writes there is an `ENC` result. -/
theorem activeSlotNeverWritten : Obligations.ActiveSlotNeverWritten := by
  intro s t hi hm h
  obtain ⟨hactive, hinactive⟩ := (hi.congr rfl : FeederInv (dropMove s)).act_slots hm (step_next h).2
  exact ⟨hactive, fun hne => hinactive.resolve_left hne⟩

/-- Settles O51: a step and the replacement commute, refusals included. -/
theorem inactiveSlotIsNotObserved : Obligations.InactiveSlotIsNotObserved := by
  intro s v hmove
  rw [step_setSlot_inactive v s hmove]
  exact ⟨fun t ht => by rw [ht]; rfl, fun r hr => by rw [hr]; rfl⟩

end

section
/-! What the decoder and the encoder do, up to the names of the pseudo-descriptors (30_encoding.md): an expansion
has its descriptor's fields, and a word decodes to a descriptor whose expansion is the `LO` or `HI` of the word's
fields. -/

namespace Sys2Proof

/-! ## Expansions (R73) -/

@[simp] theorem Instr.expand_cnt (i : Instr) : i.expand.cnt = i.cnt := by
  unfold expand; split <;> rfl

@[simp] theorem Instr.expand_off (i : Instr) : i.expand.off = i.off := by
  unfold expand; split <;> rfl

@[simp] theorem Instr.expand_pol (i : Instr) : i.expand.pol = i.pol := by
  unfold expand; split <;> rfl

@[simp] theorem Instr.expand_amp (i : Instr) : i.expand.amp = i.amp := by
  unfold expand; split <;> simp_all [Instr.amp]

/-- A descriptor and its expansion are names of one word. -/
theorem encode_expand (i : Instr) : encode i.expand = encode i := by simp [encode]

/-! ## The two paths of the decoder (R67) -/

section
variable (cnt : BitVec 22) (off : BitVec 8) (pol : Bool)

theorem expand_decodeLow : (decodeLow cnt off pol).expand = .lo cnt off pol := by
  unfold decodeLow
  split_ifs with hL100 hL200
  · obtain ⟨rfl, rfl, rfl⟩ := hL100
    rfl
  · obtain ⟨rfl, rfl, rfl⟩ := hL200
    rfl
  · rfl

theorem expand_decodeHigh : (decodeHigh cnt off pol).expand = .hi cnt off pol := by
  unfold decodeHigh
  split_ifs with hChip hPol hH100 hHs
  · rw [hChip, hPol]
    rfl
  · rw [hChip, Bool.eq_false_of_not_eq_true hPol]
    rfl
  · obtain ⟨rfl, rfl, rfl⟩ := hH100
    rfl
  · obtain ⟨rfl, rfl, rfl⟩ := hHs
    rfl
  · rfl

/-- A well-formed `LO` has none of the fields that R73 gives a name (log entry 19). -/
theorem wf_lo_iff : (Instr.lo cnt off pol).wf = true
    ↔ ¬(pol = false ∧ off = 0#8 ∧ cnt = 15500#22) ∧ ¬(pol = false ∧ off = 0#8 ∧ cnt = 31000#22) := by
  grind [Instr.wf]

/-- A well-formed `HI` has none of the fields that R73 gives a name (log entry 19). -/
theorem wf_hi_iff : (Instr.hi cnt off pol).wf = true
    ↔ cnt ≠ 240#22 ∧ ¬(pol = false ∧ off = 0#8 ∧ cnt = 15500#22)
      ∧ ¬(pol = false ∧ off = 0#8 ∧ cnt = 1120#22) := by
  grind [Instr.wf]

theorem decodeLow_wf : (decodeLow cnt off pol).wf = true := by
  unfold decodeLow
  split_ifs with hL100 hL200
  · rfl
  · rfl
  · exact (wf_lo_iff ..).2 ⟨hL100, hL200⟩

theorem decodeHigh_wf : (decodeHigh cnt off pol).wf = true := by
  unfold decodeHigh
  split_ifs with hChip _ hH100 hHs
  · rfl
  · rfl
  · rfl
  · rfl
  · exact (wf_hi_iff ..).2 ⟨hChip, hH100, hHs⟩

end

/-! ## Words -/

/-- The opcode as a mask: bit 0 of the word is its `amp` field (R67). -/
theorem and_one_eq (w : Word) : w &&& 1#32 = (BitVec.ofBool (ampOf w)).setWidth 32 :=
  BitVec.and_one_eq_setWidth_ofBool_getLsbD

theorem expand_decodeWord (w : Word) : (decodeWord w).expand
    = if ampOf w then .hi (cntOf w) (offOf w) (polOf w) else .lo (cntOf w) (offOf w) (polOf w) := by
  rw [decodeWord, apply_ite Instr.expand, expand_decodeHigh, expand_decodeLow]

theorem decodeWord_wf (w : Word) : (decodeWord w).wf = true := by
  unfold decodeWord
  split
  · exact decodeHigh_wf ..
  · exact decodeLow_wf ..

/-- No bit of a word is lost in decoding: the expansion holds its four fields. -/
theorem encode_decodeWord (w : Word) : encode (decodeWord w) = w := by
  rw [← encode_expand, expand_decodeWord]
  refine Eq.trans ?_ (packFields_of_fields w)
  cases ampOf w <;> rfl

theorem decodeWord_encode_eq (i : Instr) :
    decodeWord (encode i) = if i.amp then decodeHigh i.cnt i.off i.pol else decodeLow i.cnt i.off i.pol := by
  simp [decodeWord, encode]

/-- A well-formed descriptor is the name the decoder gives its word (log entry 19). -/
theorem decodeWord_encode {i : Instr} (h : i.wf = true) : decodeWord (encode i) = i := by
  rw [decodeWord_encode_eq]
  cases i with
  | lo cnt off pol =>
    obtain ⟨hL100, hL200⟩ := (wf_lo_iff ..).1 h
    exact (if_neg hL100).trans (if_neg hL200)
  | hi cnt off pol =>
    obtain ⟨hChip, hH100, hHs⟩ := (wf_hi_iff ..).1 h
    exact (if_neg hChip).trans ((if_neg hH100).trans (if_neg hHs))
  | l100 | l200 | h100 | hs | pmp _ | pmn _ => rfl

/-- Four bytes are read as the word they are the serial form of, and the rest is left (log entry 20). -/
theorem decodeBytes_bytesOfWord (w : Word) (rest : List Byte) :
    decodeBytes (bytesOfWord w ++ rest) = .ok (decodeWord w, rest) := by
  simp [bytesOfWord, decodeBytes, wordOfBytes_bytes]

theorem decodeBytes_of_short {bs : List Byte} (h : bs.length < 4) :
    decodeBytes bs = .error (.truncated bs.length) := by
  unfold decodeBytes
  split
  · simp only [List.length_cons] at h
    omega
  · rfl

end Sys2Proof
end

section
/-! What the slices of an encoded vector hold (R63): constants, binary-coded fields and parity bits. -/

namespace Sys2Proof.Machine

/-- A vector `ENC` returns: the bits of positions 0 to 58 as symbols, and the minute mark (R95). -/
theorem enc_ok {yearMax : Nat} {t : TimeTuple} {d : Bool} {v : TimecodeVector} (h : enc yearMax t d = .ok v) :
    validTuple yearMax t = true ∧ v = (encBits t d).map symOf ++ [.minuteMark] := by
  unfold enc at h
  split at h
  case isTrue hvalid =>
    cases h
    exact ⟨hvalid, rfl⟩
  case isFalse => cases h

theorem symOf_injective : Function.Injective symOf := by decide

/-- A parity bit as a symbol, counted from the symbols it covers (R86, R88, R93). -/
theorem symOf_parity (bits : List Bool) :
    symOf (parity bits) = if (bits.map symOf).count Symbol.one % 2 = 1 then Symbol.one else .zero := by
  rw [show Symbol.one = symOf true from rfl, List.count_map_of_injective bits symOf symOf_injective true]
  simp [symOf, parity]

theorem digitBits_getElem? (n : Nat) {k : Nat} (hk : k < 4) : (digitBits n)[k]? = some (n.testBit k) := by
  interval_cases k <;> rfl

section
variable {v : TimecodeVector} {lo w n k : Nat}

/-- What a slice of a vector says of one position. -/
theorem getElem?_of_slice {l : List Symbol} (h : (v.drop lo).take w = l) (hk : k < w) : v[lo + k]? = l[k]? := by
  simp [← h, List.getElem?_take_of_lt hk]

variable (h : (v.drop lo).take w = (bcd n w).map symOf)
include h

/-- The low digit of a BCD field, least significant bit first (R64, R84). -/
theorem bcd_ones_at (hk : k < 4) (hkw : k < w) : v[lo + k]? = some (symOf ((n % 10).testBit k)) := by
  rw [getElem?_of_slice h hkw, List.getElem?_map, bcd, List.getElem?_take_of_lt hkw,
    List.getElem?_append_left hk, digitBits_getElem? _ hk]
  rfl

/-- The high digit of a BCD field, from the fifth position on. -/
theorem bcd_tens_at (hk : k < 4) (hkw : 4 + k < w) : v[lo + 4 + k]? = some (symOf ((n / 10).testBit k)) := by
  rw [Nat.add_assoc, getElem?_of_slice h hkw, List.getElem?_map, bcd, List.getElem?_take_of_lt hkw,
    List.getElem?_append_right (Nat.le_add_right 4 k),
    show 4 + k - (digitBits (n % 10)).length = k from Nat.add_sub_cancel_left .., digitBits_getElem? _ hk]
  rfl

end

section
variable {yearMax : Nat} {t : TimeTuple} {d : Bool} {v : TimecodeVector} (h : enc yearMax t d = .ok v)
include h

/-- Positions 0 to 20 and 59 (R82, R83, R94). -/
theorem enc_fixed_slices : v.take 17 = List.replicate 17 .zero
    ∧ (v.drop 17).take 4 = [symOf d, symOf (!d), .zero, .one] ∧ v[59]? = some .minuteMark := by
  rw [(enc_ok h).2]
  exact ⟨rfl, rfl, rfl⟩

/-- The binary-coded fields: minute, hour, day, weekday, month, year (R85, R87, R89 to R92). -/
theorem enc_bcd_slices : (v.drop 21).take 7 = (bcd t.minute 7).map symOf
    ∧ (v.drop 29).take 6 = (bcd t.hour 6).map symOf ∧ (v.drop 36).take 6 = (bcd t.day 6).map symOf
    ∧ (v.drop 42).take 3 = (bcd (t.weekday + 1) 3).map symOf ∧ (v.drop 45).take 5 = (bcd t.month 5).map symOf
    ∧ (v.drop 50).take 8 = (bcd (t.year % 100) 8).map symOf := by
  rw [(enc_ok h).2]
  exact ⟨rfl, rfl, rfl, rfl, rfl, rfl⟩

/-- The parity bits, of the minute, the hour and the date (R86, R88, R93). -/
theorem enc_parity_bits : v[28]? = some (if ((v.drop 21).take 7).count Symbol.one % 2 = 1 then Symbol.one else .zero)
    ∧ v[35]? = some (if ((v.drop 29).take 6).count Symbol.one % 2 = 1 then Symbol.one else .zero)
    ∧ v[58]? = some (if ((v.drop 36).take 22).count Symbol.one % 2 = 1 then Symbol.one else .zero) := by
  have hslices : (v.drop 21).take 7 = (minuteBits t).map symOf ∧ (v.drop 29).take 6 = (hourBits t).map symOf
      ∧ (v.drop 36).take 22 = (dateBits t).map symOf := by
    rw [(enc_ok h).2]
    exact ⟨rfl, rfl, rfl⟩
  obtain ⟨hminute, hhour, hdate⟩ := hslices
  rw [hminute, hhour, hdate, ← symOf_parity, ← symOf_parity, ← symOf_parity, (enc_ok h).2]
  exact ⟨rfl, rfl, rfl⟩

end

end Sys2Proof.Machine
end

section
/-! How the dump cuts a vector into groups (R74). -/

namespace Sys2Proof.Machine

theorem dumpFrom_append (p : Nat) (xs ys : TimecodeVector) :
    dumpFrom p (xs ++ ys) = dumpFrom p xs ++ dumpFrom (p + xs.length) ys := by
  induction xs generalizing p with
  | nil => rfl
  | cons x xs ih => simp [dumpFrom, ih, Nat.add_comm, Nat.add_left_comm]

/-- Where the dump sets no space it is the characters. -/
theorem dumpFrom_of_no_break {p : Nat} {xs : TimecodeVector} (h : ∀ k < xs.length, p + k ∉ dumpBreaks) :
    dumpFrom p xs = xs.map symbolChar := by
  induction xs generalizing p with
  | nil => rfl
  | cons x xs ih =>
    have hhead : p ∉ dumpBreaks := h 0 (Nat.zero_lt_succ _)
    have htail : dumpFrom (p + 1) xs = xs.map symbolChar := ih fun k hk => by
      rw [Nat.add_right_comm]
      exact h (k + 1) (Nat.succ_lt_succ hk)
    simp [dumpFrom, hhead, htail]

/-- The dump sets a space before position `p`, and none inside the `w` positions from there on. -/
abbrev BreaksOnlyAt (p w : Nat) : Prop := p ∈ dumpBreaks ∧ 0 < w ∧ ∀ k < w, 0 < k → p + k ∉ dumpBreaks

/-- One group of the dump: a space and the group's characters. -/
theorem dumpFrom_group {p w : Nat} (h : BreaksOnlyAt p w) {xs : TimecodeVector} (hlen : xs.length = w) :
    dumpFrom p xs = ' ' :: xs.map symbolChar := by
  obtain ⟨hbreak, hpos, hinside⟩ := h
  cases xs with
  | nil => exact absurd hpos (by simp [← hlen])
  | cons x xs =>
    have htail : dumpFrom (p + 1) xs = xs.map symbolChar := dumpFrom_of_no_break fun k hk => by
      rw [Nat.add_right_comm]
      exact hinside (k + 1) (by simpa [← hlen] using hk) (Nat.succ_pos k)
    simp [dumpFrom, hbreak, htail]

/-- The groups, each a start and a length, stand one after another from position `p` to 60, and the dump's spaces
there are those before the groups. -/
def groupsFrom (p : Nat) : List (Nat × Nat) → Bool
  | [] => p == 60
  | (lo, w) :: gs => decide (lo = p ∧ p + w ≤ 60 ∧ BreaksOnlyAt p w) && groupsFrom (p + w) gs

/-- The dump from the start of a group on. -/
theorem dumpFrom_of_groupsFrom {v : TimecodeVector} (hlen : v.length = 60) {p : Nat} {gs : List (Nat × Nat)}
    (h : groupsFrom p gs = true) : dumpFrom p (v.drop p)
      = (gs.map fun g => ((v.map symbolChar).drop g.1).take g.2).flatMap (' ' :: ·) := by
  induction gs generalizing p with
  | nil =>
    have hend : v.drop p = [] := List.drop_eq_nil_of_le (by rw [hlen, eq_of_beq h])
    rw [hend]
    rfl
  | cons g gs ih =>
    simp only [groupsFrom, Bool.and_eq_true, decide_eq_true_eq] at h
    obtain ⟨⟨rfl, hle, hbreaks⟩, hrest⟩ := h
    have htake : ((v.drop g.1).take g.2).length = g.2 := by
      rw [List.length_take, List.length_drop]
      omega
    rw [← List.take_append_drop g.2 (v.drop g.1), dumpFrom_append, htake, dumpFrom_group hbreaks htake,
      List.drop_drop, ih hrest]
    simp

/-- Joining with a separator puts one before every list but the first. -/
theorem intercalate_cons_eq {α : Type} (sep l : List α) (ls : List (List α)) :
    List.intercalate sep (l :: ls) = l ++ ls.flatMap (sep ++ ·) := by
  induction ls generalizing l with
  | nil => simp
  | cons l' ls ih => simp [List.intercalate_cons_cons, ih]

/-- The dump is its groups joined by single spaces; before position 0 it sets none. -/
theorem dumpVector_eq_groups {v : TimecodeVector} (hlen : v.length = 60) {gs : List (Nat × Nat)}
    (h : groupsFrom 1 gs = true) : dumpVector v
      = List.intercalate [' '] (((0, 1) :: gs).map fun g => ((v.map symbolChar).drop g.1).take g.2) := by
  have htake : (v.take 1).length = 1 := by simp [hlen]
  have hfirst : dumpFrom 0 (v.take 1) = (v.map symbolChar).take 1 := by
    rw [dumpFrom_of_no_break (by rw [htake]; decide), List.map_take]
  calc dumpVector v = dumpFrom 0 (v.take 1 ++ v.drop 1) := by rw [List.take_append_drop]; rfl
    _ = (v.map symbolChar).take 1 ++ dumpFrom 1 (v.drop 1) := by rw [dumpFrom_append, hfirst, htake]
    _ = _ := by
      rw [dumpFrom_of_groupsFrom hlen h, List.map_cons, intercalate_cons_eq]
      rfl

end Sys2Proof.Machine
end

section
open Sys2Proof Machine

/-! The settled statements of 30_encoding.md. -/

/-- Settles O4: a well-formed descriptor is the name the decoder gives its word. -/
theorem decodeInvertsEncode : Obligations.DecodeInvertsEncode := by
  intro i h
  refine ⟨decodeWord_encode h, fun rest => ?_⟩
  rw [decodeBytes_bytesOfWord, decodeWord_encode h]

/-- Settles O3: the mask and the expansion both read the `amp` field. -/
theorem opcodeIsAmpBit : Obligations.OpcodeIsAmpBit := by
  intro w
  rw [expand_decodeWord, and_one_eq]
  cases ampOf w <;> simp

/-- Settles O5: by `decodeWord_wf` and `encode_decodeWord`. -/
theorem encodeInvertsDecode : Obligations.EncodeInvertsDecode :=
  ⟨fun w => ⟨decodeWord_wf w, encode_decodeWord w⟩, fun _ => decodeBytes_of_short⟩

/-- Settles O6: a descriptor executes as the dequeue of its fields (`exec_eq`), which its expansion shares; the words
and expansions are computed. -/
theorem pseudoDescriptorsExpand : Obligations.PseudoDescriptorsExpand := by
  refine ⟨by decide, by decide, by decide, by decide, fun d => ?_, rfl, rfl, rfl, rfl, fun _ => ⟨rfl, rfl⟩,
    fun i s => by simp [exec_eq]⟩
  simp only [encode, packFields_toNat, Instr.cnt, Instr.off, Instr.pol, Instr.amp, BitVec.toNat_ofNat,
    Bool.toNat_true, Bool.toNat_false]
  omega

/-- Settles O37: every field is a slice of the vector, read digit by digit. Of the weekday one digit is kept, which is
all of it. -/
theorem vectorLayout : Obligations.VectorLayout := by
  intro yearMax t d v h
  obtain ⟨hhead, hzone, hmark⟩ := enc_fixed_slices h
  obtain ⟨hminute, hhour, hday, hweekday, hmonth, hyear⟩ := enc_bcd_slices h
  obtain ⟨hp1, hp2, hp3⟩ := enc_parity_bits h
  have hmod : (t.weekday + 1) % 10 = t.weekday + 1 := by
    have hvalid := (enc_ok h).1
    simp only [validTuple, Bool.and_eq_true, decide_eq_true_eq] at hvalid
    omega
  rw [← hmod]
  refine ⟨enc_length h, fun p hp => ?_, getElem?_of_slice (k := 0) hzone (by decide), ?_,
    getElem?_of_slice (k := 2) hzone (by decide), getElem?_of_slice (k := 3) hzone (by decide),
    fun k hk => bcd_ones_at hminute hk (by omega), fun k hk => bcd_tens_at hminute (by omega) (by omega), hp1,
    fun k hk => bcd_ones_at hhour hk (by omega), fun k hk => bcd_tens_at hhour (by omega) (by omega), hp2,
    fun k hk => bcd_ones_at hday hk (by omega), fun k hk => bcd_tens_at hday (by omega) (by omega),
    fun k hk => bcd_ones_at hweekday (by omega) hk,
    fun k hk => bcd_ones_at hmonth hk (by omega), bcd_tens_at (k := 0) hmonth (by decide) (by decide),
    fun k hk => bcd_ones_at hyear hk (by omega), fun k hk => bcd_tens_at hyear hk (by omega), hp3, hmark⟩
  · rw [← Nat.zero_add p, getElem?_of_slice (lo := 0) hhead hp, List.getElem?_replicate_of_lt hp]
  · have hsummer : v[17 + 1]? = some (symOf (!d)) := getElem?_of_slice hzone (by decide)
    cases d <;> exact hsummer

/-- Settles O1: each word is decoded. -/
theorem listedWordsDecode : Obligations.ListedWordsDecode := by
  unfold Obligations.ListedWordsDecode
  decide

/-- Settles O2: by `packFields_toNat` and the four field values. -/
theorem wordValueFromFields : Obligations.WordValueFromFields :=
  ⟨fun _ => packFields_toNat .., fun w => ⟨cntOf_toNat w, offOf_toNat w, polOf_toNat w, ampOf_toNat w⟩⟩

/-- Settles O41: the groups after the first begin at the dump's spaces and fill positions 1 to 59. -/
theorem dumpGroupsByField : Obligations.DumpGroupsByField := by
  have hread {b : Bool} {s : State} {slot : Option TimecodeVector} (h : slotAt s b = slot) :
      dumpSlot s b = slot.map dumpVector := congrArg (Option.map dumpVector) h
  exact ⟨rfl, rfl, rfl, fun _ _ hmoves => ⟨step_of_moves hmoves, fun _ => hread, hread⟩,
    fun _ hlen => dumpVector_eq_groups hlen (by decide)⟩

end

section
/-! When `ENC` gives a vector, which positions the flag reaches, and what parity bits and decoded fields say of the
slices they stand for (40_timecode_encoder.md). -/

namespace Sys2Proof.Machine

theorem validTuple_iff {yearMax : Nat} {t : TimeTuple} : validTuple yearMax t = true
    ↔ t.year ≤ yearMax ∧ 1 ≤ t.month ∧ t.month ≤ 12 ∧ 1 ≤ t.day ∧ t.day ≤ 31 ∧ t.hour ≤ 23 ∧ t.minute ≤ 59
      ∧ t.second ≤ 59 ∧ t.weekday ≤ 6 := by
  simp only [validTuple, Bool.and_eq_true, decide_eq_true_eq, and_assoc]

theorem enc_of_valid {yearMax : Nat} {t : TimeTuple} (h : validTuple yearMax t = true) (d : Bool) :
    enc yearMax t d = .ok ((encBits t d).map symOf ++ [.minuteMark]) := if_pos h

theorem enc_of_not_valid {yearMax : Nat} {t : TimeTuple} (h : ¬validTuple yearMax t = true) (d : Bool) :
    enc yearMax t d = .error .protocolInputError := if_neg h

/-- `ENC` tells two valid tuples apart by their bits only. -/
theorem enc_congr {yearMax : Nat} {t u : TimeTuple} {d : Bool} (ht : validTuple yearMax t = true)
    (hu : validTuple yearMax u = true) (hbits : encBits u d = encBits t d) : enc yearMax u d = enc yearMax t d := by
  rw [enc_of_valid ht, enc_of_valid hu, hbits]

/-- The bits hold the year modulo 100 (R92). -/
theorem encBits_year_congr {t : TimeTuple} {y : Nat} (h : y % 100 = t.year % 100) (d : Bool) :
    encBits { t with year := y } d = encBits t d := by
  simp only [encBits, minuteBits, hourBits, dateBits, h]

theorem encBits_length (t : TimeTuple) (d : Bool) : (encBits t d).length = 59 := rfl

/-- The flag reaches `ENC.Z`, positions 17 and 18, only (R83). -/
theorem enc_flag_slices {yearMax : Nat} {t : TimeTuple} {d e : Bool} {v v' : TimecodeVector}
    (h : enc yearMax t d = .ok v) (h' : enc yearMax t e = .ok v') :
    v.take 17 = v'.take 17 ∧ v.drop 19 = v'.drop 19 := by
  rw [(enc_ok h).2, (enc_ok h').2]
  exact ⟨rfl, rfl⟩

/-- Before the minute mark a vector holds bits only (R95). -/
theorem enc_symbol_is_bit {yearMax : Nat} {t : TimeTuple} {d : Bool} {v : TimecodeVector} (h : enc yearMax t d = .ok v)
    {p : Nat} (hp : p ≤ 58) : v[p]? = some .zero ∨ v[p]? = some .one := by
  have hlt : p < (encBits t d).length := by rw [encBits_length]; omega
  have hat : v[p]? = some (symOf (encBits t d)[p]) := by
    rw [(enc_ok h).2, List.getElem?_append_left (by simpa using hlt), List.getElem?_map, List.getElem?_eq_getElem hlt]
    rfl
  rw [hat]
  cases (encBits t d)[p]
  · exact .inl rfl
  · exact .inr rfl

/-- A slice and its parity bit together hold an even number of ones (R86, R88, R93). -/
theorem count_one_even_of_parity {v : TimecodeVector} {lo w : Nat}
    (h : v[lo + w]? = some (if ((v.drop lo).take w).count Symbol.one % 2 = 1 then Symbol.one else .zero)) :
    ((v.drop lo).take (w + 1)).count Symbol.one % 2 = 0 := by
  rw [List.take_add_one, List.getElem?_drop, h, List.count_append]
  split
  case isTrue hodd =>
    rw [Option.toList_some, List.count_singleton_self]
    omega
  case isFalse heven =>
    rw [Option.toList_some, List.count_singleton]
    exact Nat.mod_two_ne_one.mp heven

/-! ## Decoding a field (R99) -/

theorem bitsValue_take_digitBits (n : Nat) {k : Nat} (hk : k ≤ 4) : bitsValue ((digitBits n).take k) = n % 2 ^ k := by
  have hbit (i : Nat) : (if n.testBit i = true then 1 else 0) = n / 2 ^ i % 2 := by
    rw [← Nat.toNat_testBit]
    cases n.testBit i <;> rfl
  interval_cases k <;> simp only [digitBits, List.take, bitsValue, hbit] <;> omega

theorem map_symOf_beq_one (bits : List Bool) : (bits.map symOf).map (· == Symbol.one) = bits := by
  have hbit : (fun b => symOf b == Symbol.one) = id := by decide
  rw [List.map_map]
  exact (congrArg (bits.map ·) hbit).trans (List.map_id bits)

/-- A digit decodes to what was encoded, if its bits suffice. -/
theorem bitsValue_of_slice {v : TimecodeVector} {lo k n : Nat}
    (h : (v.drop lo).take k = ((digitBits n).take k).map symOf) (hk : k ≤ 4) (hn : n < 2 ^ k) :
    bitsValue (((v.drop lo).take k).map (· == Symbol.one)) = n := by
  rw [h, map_symOf_beq_one, bitsValue_take_digitBits n hk, Nat.mod_eq_of_lt hn]

theorem bcd_eq_append (n k : Nat) : bcd n (4 + k) = digitBits (n % 10) ++ (digitBits (n / 10)).take k :=
  List.take_length_add_append (l₁ := digitBits (n % 10)) k

/-- A BCD field decodes to what was encoded, if its tens have bits enough. -/
theorem fieldValue_of_bcd {v : TimecodeVector} {lo k n : Nat} (h : (v.drop lo).take (4 + k) = (bcd n (4 + k)).map symOf)
    (hk : k ≤ 4) (hn : n / 10 < 2 ^ k) : fieldValue v lo 4 k = n := by
  rw [bcd_eq_append, List.map_append] at h
  have hones : (v.drop lo).take 4 = ((digitBits (n % 10)).take 4).map symOf := by
    have hfirst := congrArg (List.take 4) h
    rw [List.take_take, Nat.min_eq_left (Nat.le_add_right 4 k)] at hfirst
    exact hfirst
  have htens : (v.drop (lo + 4)).take k = ((digitBits (n / 10)).take k).map symOf := by
    have hrest := congrArg (List.drop 4) h
    rw [List.drop_take, List.drop_drop, Nat.add_sub_cancel_left] at hrest
    exact hrest
  rw [fieldValue, bitsValue_of_slice hones (by decide) (by omega), bitsValue_of_slice htens hk hn, Nat.mod_add_div]

end Sys2Proof.Machine
end

section
open Sys2Proof Machine

/-! The settled statements of 40_timecode_encoder.md. -/

/-- Settles O36: the check is the conjunction of the fields' ranges, and `ENC` decides by it. -/
theorem encodeRejectsExactlyInvalid : Obligations.EncodeRejectsExactlyInvalid :=
  ⟨rfl, fun _ _ d => ⟨fun h => ⟨_, enc_of_valid (validTuple_iff.mpr h) d⟩,
    fun h => enc_of_not_valid (h ∘ validTuple_iff.mp) d⟩⟩

/-- Settles O38: the constants are read off the layout, and each parity bit makes its slice even. -/
theorem vectorInvariants : Obligations.VectorInvariants := by
  rintro yearMax v ⟨t, d, h⟩
  obtain ⟨-, hhead, h17, h18, h19, h20, -⟩ := vectorLayout yearMax t d v h
  obtain ⟨hp1, hp2, hp3⟩ := enc_parity_bits h
  refine ⟨hhead 0 (by decide), h20, (enc_fixed_slices h).2.2, fun p _ hp => hhead p (by omega), h19, ?_,
    fun _ => enc_symbol_is_bit h, count_one_even_of_parity hp1, count_one_even_of_parity hp2,
    count_one_even_of_parity hp3⟩
  cases d
  · exact .inr ⟨h17, h18⟩
  · exact .inl ⟨h17, h18⟩

/-- Settles O39: each field is a BCD slice of the vector, wide enough for a valid tuple's value; the weekday's has
one digit. -/
theorem vectorRoundTrip : Obligations.VectorRoundTrip := by
  intro yearMax t d v h
  obtain ⟨-, -, hmonthMax, -, hdayMax, hhourMax, hminuteMax, -, hweekdayMax⟩ := validTuple_iff.mp (enc_ok h).1
  obtain ⟨hminute, hhour, hday, hweekday, hmonth, hyear⟩ := enc_bcd_slices h
  obtain ⟨-, -, h17, -⟩ := vectorLayout yearMax t d v h
  have hmod : (t.weekday + 1) % 10 = t.weekday + 1 := Nat.mod_eq_of_lt (by omega)
  have hweekdayValue : fieldValue v 42 3 0 = (t.weekday + 1) % 10 :=
    bitsValue_of_slice (k := 3) hweekday (by decide) (by omega)
  refine ⟨fieldValue_of_bcd hminute (by decide) (by omega), fieldValue_of_bcd hhour (by decide) (by omega),
    fieldValue_of_bcd hday (by decide) (by omega), hweekdayValue.trans hmod,
    fieldValue_of_bcd hmonth (by decide) (by omega), fieldValue_of_bcd hyear (by decide) (by omega), ?_⟩
  rw [h17]
  cases d <;> decide

/-- Settles O40: no bit is of the second or the century, and around positions 17 and 18 the bits do not depend on the
flag. -/
theorem vectorIgnoresSecondAndCentury : Obligations.VectorIgnoresSecondAndCentury := by
  intro yearMax t d hvalid
  obtain ⟨hyear, hmonth, hmonthMax, hday, hdayMax, hhour, hminute, hsecond, hweekday⟩ := validTuple_iff.mp hvalid
  refine ⟨fun sec hsec => enc_congr hvalid ?_ rfl, fun y hy hmod => enc_congr hvalid ?_ (encBits_year_congr hmod d),
    fun v v' hv hv' p h17 h18 => ?_⟩
  · exact validTuple_iff.mpr ⟨hyear, hmonth, hmonthMax, hday, hdayMax, hhour, hminute, hsec, hweekday⟩
  · exact validTuple_iff.mpr ⟨hy, hmonth, hmonthMax, hday, hdayMax, hhour, hminute, hsecond, hweekday⟩
  · obtain ⟨hbefore, hafter⟩ := enc_flag_slices hv hv'
    rcases Nat.lt_or_ge p 17 with hp | hp
    · rw [← List.getElem?_take_of_lt hp, hbefore, List.getElem?_take_of_lt hp]
    · obtain ⟨k, rfl⟩ := Nat.exists_eq_add_of_le (show 19 ≤ p by omega)
      rw [← List.getElem?_drop, hafter, List.getElem?_drop]

end

section
/-! The chip generator (41_phase_chip_lfsr.md): one step in plain arithmetic, the 512 steps from any start state, and
the period of the register. -/

namespace Sys2Proof.Machine

/-! ## One step -/

theorem chipOf_eq (v : BitVec 9) : chipOf v = decide (v.toNat % 2 = 1) := Nat.testBit_zero v.toNat

theorem ushiftRight_one_toNat (v : BitVec 9) : (v >>> 1).toNat = v.toNat / 2 := by
  rw [BitVec.toNat_ushiftRight, Nat.shiftRight_one]

/-- The register after a step, as a number (R111). -/
theorem lfsrNext_toNat (v : BitVec 9) :
    (lfsrNext v).toNat = if v.toNat % 2 = 1 ∨ v.toNat / 2 = 0 then (v.toNat / 2) ^^^ 0x110 else v.toNat / 2 := by
  have hguard : (chipOf v || v >>> 1 == 0#9) = true ↔ v.toNat % 2 = 1 ∨ v.toNat / 2 = 0 := by
    rw [Bool.or_eq_true, chipOf_eq, decide_eq_true_eq, beq_iff_eq, ← BitVec.toNat_inj, ushiftRight_one_toNat]
    rfl
  simp only [lfsrNext, hguard, apply_ite BitVec.toNat, BitVec.toNat_xor, ushiftRight_one_toNat]
  rfl

/-- No step leads to 0: a shifted value of 0 is XORed, and the mask's top bit is not in a shifted value. -/
theorem lfsrNext_ne_zero (v : BitVec 9) : lfsrNext v ≠ 0#9 := by
  intro hzero
  have hnat := congrArg BitVec.toNat hzero
  rw [lfsrNext_toNat] at hnat
  split at hnat
  case isTrue =>
    have hmask : v.toNat / 2 = 0x110 := Nat.xor_eq_zero_iff.1 hnat
    omega
  case isFalse hguard => exact hguard (.inr hnat)

theorem doLfsrStep_of_enabled {s : State} (h : s.n < 512) : doLfsrStep s = .next (lfsrStep s) :=
  congrArg Host.Outcome.next (if_pos h)

theorem doLfsrGen_of_start {s : State} (hn : s.n = 0) (hreg : s.lfsr = 0#9) :
    doLfsrGen s = .next (lfsrSteps 512 s) :=
  congrArg Host.Outcome.next (if_pos ⟨hn, hreg⟩)

/-! ## The 512 steps from the start value -/

/-- The state with no table built, which the generator does not see. -/
def withoutTable (s : State) : State := { s with tab := State.reset.tab, tabValid := false }

theorem lfsrSteps_withoutTable (k : Nat) (s : State) :
    lfsrSteps k (withoutTable s) = withoutTable (lfsrSteps k s) := by
  induction k generalizing s with
  | zero => rfl
  | succ k ih => exact ih (lfsrStep s)

/-- At the start value no chip has been emitted, so without a table the store's invariant holds. -/
theorem withoutTable_storeInv {s : State} (hn : s.n = 0) (hreg : s.lfsr = 0#9) : StoreInv (withoutTable s) where
  chips_bound := hn.trans_le (Nat.zero_le _)
  register := hreg.trans (congrArg lfsrAt hn).symm
  chips k hk := absurd (hn ▸ hk) (Nat.not_lt_zero k)
  table_size := List.length_replicate
  table := nofun

/-- From the start value the steps emit the chips of the register's values, whatever else the state holds (R112). -/
theorem lfsrSteps_of_start {s : State} (hn : s.n = 0) (hreg : s.lfsr = 0#9) {k : Nat} (hk : k ≤ 512) :
    (lfsrSteps k s).lfsr = lfsrAt k ∧ ∀ j, j < k → patAt (lfsrSteps k s) j = chipOf (lfsrAt j) := by
  have hcount : (lfsrSteps k s).n = k := by rw [lfsrSteps_n, hn, Nat.zero_add]
  have hinv : StoreInv (withoutTable (lfsrSteps k s)) := by
    rw [← lfsrSteps_withoutTable]
    exact (withoutTable_storeInv hn hreg).lfsrSteps (by simpa [withoutTable, hn])
  exact ⟨hinv.register.trans (congrArg lfsrAt hcount), fun j hj => hinv.chips j (hj.trans_eq hcount.symm)⟩

/-- The generator has no input (R115): from any two states at the start value it gives one register and one pattern. -/
theorem lfsrSteps_deterministic {s t : State} (hs : s.n = 0) (hsreg : s.lfsr = 0#9) (ht : t.n = 0)
    (htreg : t.lfsr = 0#9) :
    (lfsrSteps 512 s).lfsr = (lfsrSteps 512 t).lfsr ∧ (lfsrSteps 512 s).pat = (lfsrSteps 512 t).pat := by
  obtain ⟨hsLast, hsChips⟩ := lfsrSteps_of_start hs hsreg (Nat.le_refl 512)
  obtain ⟨htLast, htChips⟩ := lfsrSteps_of_start ht htreg (Nat.le_refl 512)
  exact ⟨hsLast.trans htLast.symm, BitVec.eq_of_getLsbD_eq fun k hk => (hsChips k hk).trans (htChips k hk).symm⟩

/-- The run from reset, evaluated. (The pattern comes first: its chips make the kernel evaluate the register step by
step.) -/
theorem lfsrSteps_reset :
    (lfsrSteps 512 State.reset).pat = specPattern ∧ (lfsrSteps 512 State.reset).lfsr = 0x110#9 := by
  decide +kernel

/-! ## The period of the register (R113) -/

theorem lfsrAt_succ_eq_iterate (k : Nat) : lfsrAt (k + 1) = lfsrNext^[k] 0x110#9 := by
  induction k with
  | zero => rfl
  | succ k ih => rw [Function.iterate_succ_apply', ← ih]; rfl

/-- The register's first value after the seed comes again after 511 further steps, and after no proper divisor of 511
(1, 7 or 73); so its cycle has exactly 511 values. -/
theorem lfsrNext_minimalPeriod : Function.minimalPeriod lfsrNext 0x110#9 = 511 := by
  have hperiod : Function.IsPeriodicPt lfsrNext 511 0x110#9 := by
    obtain ⟨hlast, -⟩ := lfsrSteps_of_start (s := State.reset) rfl rfl (Nat.le_refl 512)
    exact (lfsrAt_succ_eq_iterate 511).symm.trans (hlast.symm.trans lfsrSteps_reset.2)
  have hshorter : ∀ d ∈ Nat.divisors 511, d = 511 ∨ ¬Function.IsPeriodicPt lfsrNext d 0x110#9 := by decide +kernel
  have hdivisor : Function.minimalPeriod lfsrNext 0x110#9 ∈ Nat.divisors 511 :=
    Nat.mem_divisors.2 ⟨hperiod.minimalPeriod_dvd, by decide⟩
  exact (hshorter _ hdivisor).resolve_right (not_not_intro (Function.isPeriodicPt_minimalPeriod _ _))

/-- The seed is not reached again, and the 511 values after it are one cycle. -/
theorem lfsrAt_nodup : ((List.range 512).map lfsrAt).Nodup := by
  rw [List.range_succ_eq_map, List.map_cons, List.map_map, List.nodup_cons]
  constructor
  · intro hseed
    obtain ⟨k, -, hk⟩ := List.mem_map.1 hseed
    exact lfsrNext_ne_zero _ hk
  · refine List.nodup_range.map_on fun i hi j hj heq => ?_
    have hcycle := lfsrNext_minimalPeriod ▸ Function.iterate_injOn_Iio_minimalPeriod (f := lfsrNext) (x := 0x110#9)
    refine hcycle (List.mem_range.1 hi) (List.mem_range.1 hj) ?_
    simpa only [Function.comp_apply, Nat.succ_eq_add_one, lfsrAt_succ_eq_iterate] using heq

/-- So the register takes every 9-bit value once. -/
theorem lfsrAt_perm : ((List.range 512).map lfsrAt).Perm ((List.range 512).map (BitVec.ofNat 9)) := by
  refine (List.subperm_of_subset lfsrAt_nodup fun v _ => ?_).perm_of_length_le (by simp)
  exact List.mem_map.2 ⟨v.toNat, List.mem_range.2 v.isLt, BitVec.ofNat_toNat 9 v⟩

end Sys2Proof.Machine
end

section
open Sys2Proof Machine

/-! The settled statements of 41_phase_chip_lfsr.md. -/

/-- Settles O28: the enabled step is `lfsrStep`, read off in arithmetic. -/
theorem lfsrStepEffect : Obligations.LfsrStepEffect := by
  intro s hmoves hn
  refine ⟨lfsrStep (dropMove s), ?_, rfl, lfsrNext_toNat s.lfsr, ?_, fun k hk => ?_⟩
  · rw [step_of_moves hmoves]
    exact doLfsrStep_of_enabled hn
  · rw [patAt_lfsrStep (dropMove s) hn, ← chipOf_eq]
    exact if_pos rfl
  · rw [patAt_lfsrStep (dropMove s) hn]
    exact if_neg hk

/-- Settles O29: the generator has no input, and its run from reset gives the listed pattern. -/
theorem lfsrGenProducesListedPattern : Obligations.LfsrGenProducesListedPattern := by
  intro s hmoves hn hreg
  obtain ⟨hlast, hpat⟩ := lfsrSteps_deterministic (s := dropMove s) (t := State.reset) hn hreg rfl rfl
  rw [step_of_moves hmoves]
  calc act exec .lfsrGen (dropMove s) = .next (lfsrSteps 512 (dropMove s)) := doLfsrGen_of_start hn hreg
    _ = _ := by rw [lfsrSteps_eq, hlast, hpat, lfsrSteps_reset.2, lfsrSteps_reset.1, dropMove_n, hn]

/-- Settles O30: the register takes every 9-bit value once, and half of them are odd. -/
theorem lfsrVisitsEveryValueOnce : Obligations.LfsrVisitsEveryValueOnce := by
  refine ⟨lfsrAt_nodup, ?_⟩
  calc (List.range 512).countP (fun k => chipOf (lfsrAt k))
      = ((List.range 512).map lfsrAt).countP chipOf := by
        rw [List.countP_map, Function.comp_def]
    _ = ((List.range 512).map (BitVec.ofNat 9)).countP chipOf := lfsrAt_perm.countP_eq _
    _ = 256 := by decide +kernel

end

section
/-! The tick that dequeues a descriptor (R149), by the length of its first half-cycle: several ticks, or one. -/

namespace Sys2Proof.Machine

variable {amp pol : Bool} {off : BitVec 8} {cnt : BitVec 22} {s : State}

/-- The accepted first half-cycle of a descriptor fits the tick counter (R20, R150, R154). -/
theorem firstHalf_lt (hc : cnt ≠ 0#22) (ho : offsetReserved s.clr amp cnt off = false) :
    halfLenInt s.clr amp pol off true (cnt == 1#22) < 2 ^ 17 := by
  refine (halfLenInt_bounds pol fun hamp hfirst => ?_).2
  have hcnt : 2 ≤ cnt.toNat := by
    have hne : cnt ≠ 1#22 := by simpa using hfirst
    bv_omega
  subst hamp
  exact offset_lt_of_accepted ho hcnt

/-- A first half-cycle of several ticks: the dequeue tick uses up one of them. -/
theorem beginDescriptor_of_several {k : Nat} (hc : cnt ≠ 0#22)
    (ho : offsetReserved s.clr amp cnt off = false)
    (hlen : halfLenInt s.clr amp pol off true (cnt == 1#22) = (k + 1 : Nat)) (hk : 0 < k) :
    beginDescriptor amp pol off cnt s = .next { s with
      amp := amp, pol := pol, off := off, x := cnt, st := if amp then .highHalf1 else .lowHalf1,
      y := BitVec.ofNat 17 k, e := 1#17, pins := pinLevel (latch amp pol off cnt s) } := by
  have hfits := firstHalf_lt (pol := pol) hc ho
  rw [hlen] at hfits
  have hy : (latch amp pol off cnt s).y = BitVec.ofNat 17 (k + 1) := halfLen_of_int hlen
  have hmore : (latch amp pol off cnt s).y ≠ 1#17 := by rw [hy]; bv_omega
  have hleft : BitVec.ofNat 17 (k + 1) - 1#17 = BitVec.ofNat 17 k := by bv_omega
  rw [beginDescriptor_accepted pol hc ho, halfTick_inside hmore, hy, hleft]
  rfl

/-- A first half-cycle of one tick that is not the last half-cycle: the dequeue tick ends it. -/
theorem beginDescriptor_of_one (hc : cnt ≠ 0#22) (hlast : cnt ≠ 1#22)
    (ho : offsetReserved s.clr amp cnt off = false)
    (hlen : halfLenInt s.clr amp pol off true false = 1) :
    beginDescriptor amp pol off cnt s = .next { s with
      amp := amp, pol := pol, off := off, x := cnt - 1#22, st := if amp then .highHalf2 else .lowHalf2,
      y := halfLen s.clr amp pol off false (cnt - 1#22 == 1#22), e := 0#17,
      pins := pinLevel (latch amp pol off cnt s) } := by
  have hy : (latch amp pol off cnt s).y = 1#17 := by
    rw [← beq_eq_false_iff_ne.2 hlast] at hlen
    exact halfLen_of_int hlen
  rw [beginDescriptor_accepted pol hc ho, halfTick_endsHalf hy hlast]
  cases amp <;> rfl

theorem displacement_positive (off : BitVec 8) : displacement false off = off.toNat := rfl

theorem displacement_negative (off : BitVec 8) : displacement true off = -off.toNat := rfl

/-- A high descriptor of several half-cycles: the first is shortened by the displacement (R150, R152). -/
theorem exec_high {i : Instr} {k : Nat} (hamp : i.amp = true) (hc : 2 ≤ i.cnt.toNat)
    (ho : i.off.toNat < s.clr.toNat + 2)
    (hlen : (k : Int) = (s.clr.toNat + 1 : Nat) - displacement i.pol i.off) (hk : 0 < k) :
    exec i s = .next { s with
      amp := true, pol := i.pol, off := i.off, x := i.cnt, st := .highHalf1, y := BitVec.ofNat 17 k, e := 1#17,
      pins := 0b01#2 } := by
  have hzero : i.cnt ≠ 0#22 := by bv_omega
  have hlast : i.cnt ≠ 1#22 := by bv_omega
  rw [exec_eq, hamp]
  refine beginDescriptor_of_several hzero (offsetReserved_of_lt ho) ?_ hk
  rw [beq_eq_false_iff_ne.2 hlast, halfLenInt_first]
  omega

/-- Without a displacement the first half-cycle has the nominal length (R150). -/
theorem exec_high_plain {i : Instr} (hamp : i.amp = true) (hc : 2 ≤ i.cnt.toNat) (hpol : i.pol = false)
    (hoff : i.off = 0#8) :
    exec i s = .next { s with
      amp := true, pol := false, off := 0#8, x := i.cnt, st := .highHalf1, y := BitVec.ofNat 17 (s.clr.toNat + 1),
      e := 1#17, pins := 0b01#2 } := by
  rw [← hpol, ← hoff]
  refine exec_high hamp hc ?_ ?_ (Nat.succ_pos _)
  · simp [hoff]
  · simp [hpol, hoff, displacement_positive]

end Sys2Proof.Machine
end

section
/-! The counts of the words of a second (R130): those of the table's rows, read through `LOOKUP`. -/

namespace Sys2Proof.Machine

@[simp] theorem cntOf_encode (i : Instr) : cntOf (encode i) = i.cnt := cntOf_packFields ..

@[simp] theorem cntOf_chipWord (p : Params) (chip : Bool) : cntOf (chipWord p chip) = 240#22 := by
  cases chip <;> exact cntOf_encode _

/-- The counts a second begins with (R121 to R123, R128). -/
def amplitudeCounts : Symbol → List Nat
  | .zero => [15500, 15500]
  | .one => [31000]
  | .minuteMark => [15500, 15500]
  | .reserved3 => []

section
variable {s : State} (ht : s.tab = tableWords s)
include ht

theorem amplitudeWords_counts (sym : Symbol) :
    (amplitudeWords s sym).map (fun w => (cntOf w).toNat) = amplitudeCounts sym := by
  obtain ⟨h0, h1, h2, -⟩ := tabAt_fixed ht
  cases sym <;> simp [amplitudeWords, amplitudeCounts, h0, h1, h2, Instr.cnt]

/-- Both variants of the pattern are made of chips of 240 half-cycles (R125, R126). -/
theorem pmWords_counts (inv : Bool) :
    (pmWords s inv).map (fun w => (cntOf w).toNat) = List.replicate 512 240 := by
  rw [List.eq_replicate_iff]
  refine ⟨by simp [pmWords, Config.chipCount], fun c hc => ?_⟩
  simp only [pmWords, List.map_map, List.mem_map, List.mem_range] at hc
  obtain ⟨k, hk, rfl⟩ := hc
  cases inv
  · simp [tabAt_pat ht hk]
  · simp [tabAt_inv ht hk]

theorem secondWords_counts (sym : Symbol) (i : Nat) :
    (secondWords s sym i).map (fun w => (cntOf w).toNat)
      = amplitudeCounts sym ++ List.replicate 512 240 ++ [1120] := by
  obtain ⟨-, -, -, h3⟩ := tabAt_fixed ht
  rw [secondWords, List.map_append, List.map_append, amplitudeWords_counts ht, pmWords_counts ht, List.map_singleton,
    h3, cntOf_encode]
  rfl

theorem totalCount_secondWords {sym : Symbol} (hs : sym ≠ .reserved3) (i : Nat) :
    totalCount (secondWords s sym i) = 155000 := by
  have hamp : (amplitudeCounts sym).sum = 31000 := by
    cases sym with
    | zero | one | minuteMark => rfl
    | reserved3 => exact absurd rfl hs
  rw [totalCount, secondWords_counts ht, List.sum_append, List.sum_append, hamp, List.sum_replicate]
  rfl

theorem secondWords_counts_even {sym : Symbol} {i : Nat} {w : Word} (hw : w ∈ secondWords s sym i) :
    (cntOf w).toNat % 2 = 0 := by
  have hamp : ∀ c ∈ amplitudeCounts sym, c % 2 = 0 := by cases sym <;> decide
  have hmem : (cntOf w).toNat ∈ amplitudeCounts sym ++ List.replicate 512 240 ++ [1120] := by
    rw [← secondWords_counts ht sym i]
    exact List.mem_map_of_mem hw
  simp only [List.mem_append, List.mem_replicate, List.mem_singleton] at hmem
  obtain (hc | ⟨-, hc⟩) | hc := hmem
  · exact hamp _ hc
  · rw [hc]
  · rw [hc]

end

/-! ## `LOOKUP` (R128) -/

theorem lookup_of_invalid {s : State} (h : s.tabValid = false) (sym : Symbol) (i : Nat) :
    lookup s sym i = .error .lookupBeforeTable := by
  simp [lookup, h]

theorem lookup_of_late {s : State} {i : Nat} (h : s.tabValid = true) (hi : 60 ≤ i) (sym : Symbol) :
    lookup s sym i = .error .indexOutOfRange := by
  simp [lookup, h, Config.vectorLen, hi]

theorem lookup_reserved3 {s : State} {i : Nat} (h : s.tabValid = true) (hi : i < 60) :
    lookup s .reserved3 i = .error .reservedSymbol := by
  simp [lookup, h, Config.vectorLen, hi]

/-- The phase-modulation words of a second are one of the table's two patterns, in order (R41, R128). -/
theorem pmWords_getElem? (s : State) (inv : Bool) {k : Nat} (hk : k < 512) :
    (pmWords s inv)[k]? = some (tabAt s ((if inv then 516 else 4) + k)) := by
  simp [pmWords, Config.chipCount, hk]

/-- The default of `PM_SELECT`, which reset has (R129). -/
theorem pmSelect_reset {i : Nat} (hi : i < 60) :
    pmSelect State.reset.par .one i = true ∧ pmSelect State.reset.par .zero i = false
    ∧ pmSelect State.reset.par .minuteMark i = false :=
  ⟨BitVec.getLsbD_allOnes.trans (decide_eq_true hi), BitVec.getLsbD_zero, BitVec.getLsbD_zero⟩

end Sys2Proof.Machine
end

section
open Sys2Proof Machine

/-! The settled statements of 42_descriptor_table.md. -/

/-- Settles O10: each is the dequeue of a high descriptor of several half-cycles, and only `PMP` with
`off = CLR + 1` has a first half-cycle of one tick. -/
theorem highPseudoDequeueTick : Obligations.HighPseudoDequeueTick := by
  intro s
  refine ⟨exec_high_plain rfl (by decide) rfl rfl, exec_high_plain rfl (by decide) rfl rfl,
    fun off hoff => ?pmpSeveral, fun off hoff => ?pmpOne, fun off hoff => ?pmn⟩
  case pmpSeveral =>
    have hlen : ((s.clr.toNat + 1 - off.toNat : Nat) : Int) = (s.clr.toNat + 1 : Nat) - displacement false off := by
      rw [displacement_positive]
      omega
    exact exec_high (i := .pmp off) rfl (by simp [Instr.cnt]) (Nat.lt_succ_of_lt hoff) hlen (by omega)
  case pmpOne =>
    have hlen : halfLenInt s.clr true false off true false = 1 := by
      rw [halfLenInt_first, displacement_positive]
      omega
    have hnext : halfLen s.clr true false off false (240#22 - 1#22 == 1#22) = BitVec.ofNat 17 (s.clr.toNat + 2) :=
      halfLen_of_int (halfLenInt_same s.clr true false off false)
    rw [exec_eq, ← hnext]
    exact beginDescriptor_of_one (cnt := 240#22) (by decide) (by decide)
      (offsetReserved_of_lt (hoff.trans_lt (Nat.lt_succ_self _))) hlen
  case pmn =>
    have hlen : ((s.clr.toNat + 1 + off.toNat : Nat) : Int) = (s.clr.toNat + 1 : Nat) - displacement true off := by
      rw [displacement_negative]
      omega
    exact exec_high (i := .pmn off) rfl (by simp [Instr.cnt]) hoff hlen (by omega)

/-- Settles O32: `PM_SELECT` reads its symbol's mask, and the words of a second are `secondWords`. -/
theorem lookupComposition : Obligations.LookupComposition := by
  refine ⟨fun _ _ => ⟨rfl, rfl, rfl⟩, fun _ hi => pmSelect_reset hi, fun s sym i => ?_⟩
  refine ⟨fun h => lookup_of_invalid h sym i, fun h hi => lookup_of_late h hi sym, lookup_reserved3,
    fun h hi => ⟨fun y => pmWords s (pmSelect s.par y i), fun y => ⟨?_, fun k hk => pmWords_getElem? s _ hk⟩, ?_⟩⟩
  · simp [pmWords, Config.chipCount]
  · have hok {y : Symbol} (hy : y ≠ .reserved3) : lookup s y i = .ok (secondWords s y i) :=
      lookup_ok.2 ⟨h, hi, hy, rfl⟩
    exact ⟨hok nofun, hok nofun, hok nofun⟩

/-- Settles O33: the counts are those of the table's rows, and two half-cycles of `Hn = H` are one carrier cycle. -/
theorem secondLasts155000HalfCycles : Obligations.SecondLasts155000HalfCycles := by
  intro s sym i ws hp ht hws
  obtain ⟨-, -, hs, rfl⟩ := lookup_ok.1 hws
  have htotal := totalCount_secondWords ht hs i
  obtain ⟨heven, -⟩ := Params.valid_parts hp
  refine ⟨htotal, fun w => secondWords_counts_even ht, ?_⟩
  rw [htotal, nominalHalf_clrPreload hp, Params.halfTicks]
  omega

end

section
/-! The commands of the sequencer (R142 to R146): one equation for each of their cases. -/

namespace Sys2Proof.Machine

variable {s : State}

theorem isRunning_iff : isRunning s = true ↔ s.st ≠ .stopped := bne_iff_ne

theorem isRunning_of_stopped (h : s.st = .stopped) : isRunning s = false := by
  rw [isRunning, h]
  rfl

theorem isFull_iff : isFull s = true ↔ s.fifo.length = s.par.fifoDepth := beq_iff_eq

theorem tickWith_of_stopped (run : Instr → State → Result) (h : s.st = .stopped) : tickWith run s = .next s := by
  simp [tickWith, h]

/-- A stall tick (R153). -/
theorem tickWith_of_empty (run : Instr → State → Result) (h : s.st = .setupDecode) (hfifo : s.fifo = []) :
    tickWith run s = .next s := by
  simp [tickWith, h, hfifo]

theorem doPush_of_full (w : Word) (h : s.fifo.length = s.par.fifoDepth) : doPush w s = .next s := by
  rw [doPush, if_pos (isFull_iff.2 h)]

theorem doPush_of_not_full (w : Word) (h : s.fifo.length ≠ s.par.fifoDepth) : doPush w s = .next (pushWord w s) := by
  rw [doPush, if_neg (mt isFull_iff.1 h)]

theorem doPreload_of_stopped (v : BitVec 16) (h : s.st = .stopped) :
    doPreload v s = .next { s with clr := v, clrValid := true } := by
  simp [doPreload, isRunning_of_stopped h]

theorem doPreload_of_running (v : BitVec 16) (h : s.st ≠ .stopped) :
    doPreload v s = .refused .preloadWhileRunning := by
  rw [doPreload, if_pos (isRunning_iff.2 h)]

theorem doStart_of_not_preloaded (h : s.clrValid = false) : doStart s = .refused .startBeforePreload := by
  simp [doStart, h]

theorem doStart_of_stopped (hclr : s.clrValid = true) (h : s.st = .stopped) :
    doStart s = .next { s with st := .setupDecode, pushedAny := false, wasStarted := true } := by
  simp [doStart, startSequencer, hclr, isRunning_of_stopped h]

theorem doStart_of_running (hclr : s.clrValid = true) (h : s.st ≠ .stopped) : doStart s = .next s := by
  rw [doStart, if_pos hclr, startSequencer, if_pos (isRunning_iff.2 h)]

end Sys2Proof.Machine
end

section
/-! The tick that dequeues a descriptor (R149), by the fields of the descriptor: the low path, the single high
half-cycle, and the reserved words (R154). -/

namespace Sys2Proof.Machine

variable {i : Instr} {s t : State}

/-- A low descriptor: its first half-cycle has the nominal length, whatever `pol` and `off` (R150, R151). -/
theorem exec_low (hp : s.par.valid = true) (hamp : i.amp = false) (hc : i.cnt ≠ 0#22) :
    exec i s = .next { s with
      amp := false, pol := i.pol, off := i.off, x := i.cnt, st := .lowHalf1, y := BitVec.ofNat 17 (s.clr.toNat + 1),
      e := 1#17, pins := 0b01#2 } := by
  rw [exec_eq, hamp, beginDescriptor_of_several hc rfl (halfLenInt_low ..) (Nat.succ_pos _), pinLevel_latch hp]
  rfl

/-- A descriptor of one half-cycle has no reserved offset (R154). -/
theorem offsetReserved_one (clr : BitVec 16) (amp : Bool) (off : BitVec 8) :
    offsetReserved clr amp 1#22 off = false := by
  simp [offsetReserved]

/-- A high descriptor of one half-cycle: first and last, it has the nominal length (R150, R152). -/
theorem exec_high_single (hamp : i.amp = true) (hc : i.cnt = 1#22) :
    exec i s = .next { s with
      amp := true, pol := i.pol, off := i.off, x := 1#22, st := .highHalf1, y := BitVec.ofNat 17 (s.clr.toNat + 1),
      e := 1#17, pins := 0b01#2 } := by
  rw [exec_eq, hamp, hc, beginDescriptor_of_several (by decide) (offsetReserved_one ..) (halfLenInt_same ..)
    (Nat.succ_pos _)]
  rfl

/-- A second half-cycle of a high descriptor with positive phase is lengthened by the offset if it is the last
(R150). -/
theorem halfLen_second (clr : BitVec 16) (off : BitVec 8) (cnt : BitVec 22) :
    halfLen clr true false off false (cnt - 1#22 == 1#22)
      = BitVec.ofNat 17 (clr.toNat + 2 + if cnt = 2#22 then off.toNat else 0) := by
  by_cases hc : cnt = 2#22
  · rw [if_pos hc, hc]
    exact halfLen_of_int (halfLenInt_last ..)
  · have hnotLast : cnt - 1#22 ≠ 1#22 := by bv_omega
    rw [if_neg hc, beq_eq_false_iff_ne.2 hnotLast]
    exact halfLen_of_int (halfLenInt_same ..)

/-! ## Reserved words (R154) -/

variable {amp pol : Bool} {off : BitVec 8} {cnt : BitVec 22}

theorem beginDescriptor_of_no_count : beginDescriptor amp pol off 0#22 s = .refused .reservedCount := rfl

theorem beginDescriptor_of_reserved (h : offsetReserved s.clr amp cnt off = true) :
    beginDescriptor amp pol off cnt s = .refused .reservedOffset := by
  obtain ⟨-, hcnt, -⟩ := offsetReserved_iff.1 h
  have hzero : cnt ≠ 0#22 := by bv_omega
  simp [beginDescriptor, hzero, h]

/-! ## The tick as a step -/

/-- The step that dequeues: the word is popped and what it decodes to executed (R46, R149). -/
theorem step_of_dequeues {w : Word} {rest : List Word} (h : Dequeues w rest s) :
    step s = exec (decodeWord w) { dropMove s with fifo := rest } := by
  obtain ⟨hmoves, hst, hfifo⟩ := h
  have hpop : fifoPop (dropMove s) = { dropMove s with fifo := rest } := by simp [fifoPop, hfifo]
  rw [step_of_moves hmoves, ← hpop]
  exact tick_dequeue exec (s := dropMove s) hst hfifo

/-- The dequeue of a word's fields, as a step. -/
theorem step_of_dequeues_fields {w : Word} {rest : List Word} (h : Dequeues w rest s) :
    step s = beginDescriptor (ampOf w) (polOf w) (offOf w) (cntOf w) { dropMove s with fifo := rest } := by
  rw [step_of_dequeues h, exec_decodeWord]

/-- What executing a descriptor answers, if it answers (R149, R154). -/
theorem exec_next (h : exec i s = .next t) : t = halfTick (latch i.amp i.pol i.off i.cnt s) := by
  rw [exec_eq] at h
  exact (beginDescriptor_next.1 h).2.2

/-- A word placed by `withFetchWord` in a preloaded machine is dequeued by the next step (log entry 22). -/
theorem withFetchWord_dequeues (w : Word) (hp : s.par.valid = true) :
    Dequeues w s.fifo.tail (s.withFetchWord 32 w.toNat) := by
  have hw : BitVec.ofNat 32 (w.toNat % 2 ^ 32) = w := by
    rw [Nat.mod_eq_of_lt w.isLt, BitVec.ofNat_toNat, BitVec.setWidth_eq]
  exact ⟨⟨hp, rfl⟩, rfl, congrArg (· :: s.fifo.tail) hw⟩

/-- A first half-cycle that is the only one has at least two ticks, so no descriptor ends in the tick that dequeues
it (R150). -/
theorem not_endsDescriptor_latch (amp pol : Bool) (off : BitVec 8) (cnt : BitVec 22) (s : State) :
    endsDescriptor (latch amp pol off cnt s) = false := by
  rw [← Bool.not_eq_true, endsDescriptor_iff]
  rintro ⟨hy, hx⟩
  obtain rfl : cnt = 1#22 := hx
  have hlen : (latch amp pol off 1#22 s).y = BitVec.ofNat 17 (s.clr.toNat + 2) :=
    halfLen_of_int (halfLenInt_same ..)
  rw [hlen] at hy
  have hclr := s.clr.isLt
  bv_omega

/-- The tick that dequeues a descriptor leaves the sequencer in a half state (R158). -/
theorem isHalf_halfTick_latch (amp pol : Bool) (off : BitVec 8) (cnt : BitVec 22) (s : State) :
    isHalf (halfTick (latch amp pol off cnt s)).st = true := by
  have hlatch : isHalf (latch amp pol off cnt s).st = true := by cases amp <;> rfl
  simp only [halfTick, not_endsDescriptor_latch, Bool.false_eq_true, if_false]
  split
  · rwa [isHalf_otherHalf]
  · exact hlatch

end Sys2Proof.Machine
end

section
open Sys2Proof Machine

/-! The settled statements of 43_carrier_sequencer.md: the dequeue of a descriptor. -/

/-- Settles O8: each is a low descriptor with a count. -/
theorem lowDequeueTick : Obligations.LowDequeueTick := fun _ hp =>
  ⟨fun cnt off pol hcnt => exec_low (i := .lo cnt off pol) hp rfl hcnt, exec_low hp rfl (by decide),
    exec_low hp rfl (by decide)⟩

/-- Settles O9: the one half-cycle of `cnt = 1` has no displacement; else the first has several ticks, or, with
`off = CLR + 1` and positive phase, one. -/
theorem highDequeueTick : Obligations.HighDequeueTick := by
  intro s cnt off
  refine ⟨?single, fun hcnt hoff => ?positive, fun hcnt hoff => ?negative, fun hcnt hoff => ?oneTick⟩
  case single =>
    rintro rfl pol
    exact exec_high_single (i := .hi 1#22 off pol) rfl rfl
  case positive =>
    have hlen : ((s.clr.toNat + 1 - off.toNat : Nat) : Int) = (s.clr.toNat + 1 : Nat) - displacement false off := by
      rw [displacement_positive]
      omega
    exact exec_high (i := .hi cnt off false) rfl hcnt (Nat.lt_succ_of_lt hoff) hlen (by omega)
  case negative =>
    have hlen : ((s.clr.toNat + 1 + off.toNat : Nat) : Int) = (s.clr.toNat + 1 : Nat) - displacement true off := by
      rw [displacement_negative]
      omega
    exact exec_high (i := .hi cnt off true) rfl hcnt hoff hlen (by omega)
  case oneTick =>
    have hlen : halfLenInt s.clr true false off true false = 1 := by
      rw [halfLenInt_first, displacement_positive]
      omega
    rw [exec_eq, ← halfLen_second]
    exact beginDescriptor_of_one (cnt := cnt) (by bv_omega) (by bv_omega) 
      (offsetReserved_of_lt (hoff.trans_lt (Nat.lt_succ_self _))) hlen

/-- Settles O11: the two reserved cases are the two refusals of the dequeue, and `PUSH` does not look at the word. -/
theorem reservedWordsRefused : Obligations.ReservedWordsRefused := by
  refine ⟨fun s w rest hdeq => ?_, fun s w hmoves hroom => ?_⟩
  · rw [step_of_dequeues_fields hdeq]
    refine ⟨fun hcnt => by rw [hcnt, beginDescriptor_of_no_count], fun hamp hcnt hoff => ?_, fun hcnt hfree => ?_⟩
    · exact beginDescriptor_of_reserved (offsetReserved_iff.2 ⟨hamp, hcnt, hoff⟩)
    · have hoff : ¬offsetReserved s.clr (ampOf w) (cntOf w) (offOf w) = true := mt offsetReserved_iff.1 hfree
      exact ⟨_, beginDescriptor_accepted _ hcnt (Bool.eq_false_of_not_eq_true hoff)⟩
  · rw [step_of_moves hmoves]
    exact ⟨_, doPush_of_not_full (s := dropMove s) w hroom, rfl⟩

/-- Settles O13: the latched first half-cycle drives `P`, and the descriptor does not end in its first tick. -/
theorem descriptorBeginsOnFirstHalf : Obligations.DescriptorBeginsOnFirstHalf := by
  intro i s t hp h
  rw [exec_next h]
  exact ⟨pinLevel_latch hp .., isHalf_halfTick_latch .., rfl⟩

/-- Settles O7: the word popped is decoded, and a well-formed descriptor is the name the decoder gives its word. -/
theorem stepRunsDecodedWord : Obligations.StepRunsDecodedWord := by
  refine ⟨fun s w rest => step_of_dequeues, fun s i rest hwf hdeq => ?_, fun s i hwf hp hclr => ?_⟩
  · rw [step_of_dequeues hdeq, decodeWord_encode hwf]
  · rw [step_of_dequeues (withFetchWord_dequeues _ hp), decodeWord_encode hwf]
    simp [State.withFetchWord, placeWord, dropMove, hclr]

/-- Settles O12: the dequeue and its first tick write the working registers, `st` and `pins`. -/
theorem descriptorFrame : Obligations.DescriptorFrame := by
  intro i s t h
  rw [exec_next h]
  rfl

end

section
/-! A tick in a half state as a step (R148, R149), and the length of the half-cycle it loads. -/

namespace Sys2Proof.Machine

theorem step_of_half {s : State} (hmoves : Moves .tick s) (hhalf : isHalf s.st = true) :
    step s = .next (halfTick (dropMove s)) := by
  rw [step_of_moves hmoves]
  exact tick_half exec hhalf

/-- The level of a half state, by the path and the side (R149). -/
theorem pinLevel_of_half {s : State} (hhalf : isHalf s.st = true) :
    pinLevel s = if s.st = .highHalf1 then pinsP else if s.st = .highHalf2 then pinsN
      else if s.par.lowDriveTicks ≤ s.e.toNat then pinsZ else if s.st = .lowHalf1 then pinsP else pinsN := by
  cases hst : s.st with
  | highHalf1 => simp [pinLevel_highHalf1 hst]
  | highHalf2 => simp [pinLevel_highHalf2 hst]
  | lowHalf1 => simp only [pinLevel_lowHalf1 hst, reduceCtorEq, if_false, if_true, ← Nat.not_lt, ite_not]
  | lowHalf2 => simp only [pinLevel_lowHalf2 hst, reduceCtorEq, if_false, ← Nat.not_lt, ite_not]
  | stopped => simp [hst, isHalf] at hhalf
  | setupDecode => simp [hst, isHalf] at hhalf

section
variable {clr : BitVec 16} {amp pol : Bool} {off : BitVec 8} {first last : Bool}

/-- A length that is a number of 17 bits is loaded as it is (R20). -/
theorem halfLen_toNat {k : Nat} (h : halfLenInt clr amp pol off first last = k) (hk : k < 2 ^ 17) :
    (halfLen clr amp pol off first last).toNat = k := by
  rw [halfLen_of_int h, BitVec.toNat_ofNat, Nat.mod_eq_of_lt hk]

/-- The nominal half-cycle fits `Y`, with any offset added (R20, R150). -/
theorem nominal_add_off_lt (clr : BitVec 16) (off : BitVec 8) : clr.toNat + 2 + off.toNat < 2 ^ 17 := by
  have hclr := clr.isLt
  have hoff := off.isLt
  omega

/-- The nominal half-cycle fits `Y` (R20, R150). -/
theorem nominal_lt (clr : BitVec 16) : clr.toNat + 2 < 2 ^ 17 :=
  (Nat.le_add_right ..).trans_lt (nominal_add_off_lt clr 0#8)

theorem halfLen_low_toNat : (halfLen clr false pol off first last).toNat = clr.toNat + 2 :=
  halfLen_toNat (halfLenInt_low ..) (nominal_lt clr)

theorem halfLen_same_toNat (b : Bool) : (halfLen clr amp pol off b b).toNat = clr.toNat + 2 :=
  halfLen_toNat (halfLenInt_same ..) (nominal_lt clr)

theorem halfLen_last_positive_toNat : (halfLen clr true false off false true).toNat = clr.toNat + 2 + off.toNat := by
  refine halfLen_toNat ?_ (nominal_add_off_lt clr off)
  rw [halfLenInt_last, displacement_positive]
  rfl

theorem halfLen_last_negative_toNat (hoff : off.toNat < clr.toNat + 2) :
    (halfLen clr true true off false true).toNat = clr.toNat + 2 - off.toNat := by
  refine halfLen_toNat ?_ ((Nat.sub_le ..).trans_lt (nominal_lt clr))
  rw [halfLenInt_last, displacement_negative]
  omega

end

end Sys2Proof.Machine
end

section
open Sys2Proof Machine

/-! The settled statements of 43_carrier_sequencer.md: the ticks in a half state. -/

/-- Settles O14: two or more ticks left, so the tick is inside the half-cycle. -/
theorem tickInsideHalf : Obligations.TickInsideHalf := by
  intro s hmoves hhalf hy
  have hinside : (dropMove s).y ≠ 1#17 := by
    change s.y ≠ 1#17
    bv_omega
  rw [step_of_half hmoves hhalf, halfTick_inside hinside, pinLevel_dropMove, pinLevel_of_half hhalf]
  rfl

/-- Settles O15: the tick ends the half-cycle and not the descriptor; the length loaded is by path, place and
polarity. -/
theorem tickEndsHalf : Obligations.TickEndsHalf := by
  intro s hmoves hhalf hy hx
  have hmore : s.x ≠ 1#22 := by bv_omega
  have hleft : (s.x - 1#22).toNat + 1 = s.x.toNat := by bv_omega
  have hlast : (s.x - 1#22).toNat = 1 ↔ s.x - 1#22 = 1#22 := BitVec.toNat_inj (y := 1#22)
  rw [step_of_half hmoves hhalf, halfTick_endsHalf (s := dropMove s) hy hmore]
  refine ⟨_, rfl, rfl, hleft, rfl, fun h => ⟨congrArg otherHalf h, pinLevel_highHalf1 h⟩,
    fun h => ⟨congrArg otherHalf h, pinLevel_highHalf2 h⟩, fun h => ⟨congrArg otherHalf h, pinLevel_lowHalf1 h⟩,
    fun h => ⟨congrArg otherHalf h, pinLevel_lowHalf2 h⟩, fun hamp => ?low, fun _ hnot => ?inner,
    fun hamp h hpol => ?positive, fun hamp h hpol hoff => ?negative⟩
  all_goals simp only [dropMove_clr, dropMove_amp, dropMove_pol, dropMove_off, dropMove_x]
  case low =>
    rw [hamp]
    exact halfLen_low_toNat
  case inner =>
    rw [beq_eq_false_iff_ne.2 (mt hlast.2 hnot)]
    exact halfLen_same_toNat false
  case positive =>
    rw [hamp, hpol, beq_iff_eq.2 (hlast.1 h)]
    exact halfLen_last_positive_toNat
  case negative =>
    rw [hamp, hpol, beq_iff_eq.2 (hlast.1 h)]
    exact halfLen_last_negative_toNat hoff

/-- Settles O16: the tick ends the half-cycle and the descriptor. -/
theorem tickEndsDescriptor : Obligations.TickEndsDescriptor := by
  intro s hmoves hhalf hy hx
  rw [step_of_half hmoves hhalf, halfTick_endsDescriptor (s := dropMove s) hy hx]
  exact ⟨_, rfl, rfl, pinLevel_highHalf1, pinLevel_highHalf2, pinLevel_lowHalf1, pinLevel_lowHalf2⟩

end

section
/-! The half-cycles of an accepted descriptor (R150, R154): how long each is, and how long they are together. -/

namespace Sys2Proof.Machine

variable {clr : BitVec 16} {i : Instr} {j : Nat}

theorem cnt_pos_of_accepted (h : Accepted clr i) : 0 < i.cnt.toNat := by
  have hne := h.1
  bv_omega

/-- An accepted descriptor's half-cycle that is first or last but not both has an offset below the nominal length
(R154). -/
theorem off_lt_of_accepted (h : Accepted clr i) (hj : j < i.cnt.toNat) (hamp : i.amp = true)
    (hne : (j == 0) ≠ (j + 1 == i.cnt.toNat)) : i.off.toNat < nominalHalf clr := by
  obtain ⟨hcnt, hoff⟩ := h
  have htwo : 2 ≤ i.cnt.toNat := by
    by_contra hlt
    obtain ⟨rfl, hone⟩ : j = 0 ∧ i.cnt.toNat = 1 := by omega
    simp [hone] at hne
  rw [hamp] at hoff
  exact offset_lt_of_accepted hoff htwo

/-- The length of a half-cycle is a natural number, positive and fitting `Y`. -/
theorem segmentLen_bounds (h : Accepted clr i) (hj : j < i.cnt.toNat) :
    (segmentLen clr i j : Int) = halfLenInt clr i.amp i.pol i.off (j == 0) (j + 1 == i.cnt.toNat)
    ∧ 1 ≤ segmentLen clr i j ∧ segmentLen clr i j < 2 ^ 17 := by
  obtain ⟨hpos, hlt⟩ := halfLenInt_bounds (clr := clr) (amp := i.amp) i.pol (off_lt_of_accepted h hj)
  rw [segmentLen]
  omega

/-- The length loaded is the length (R20). -/
theorem halfLen_toNat_of_accepted (h : Accepted clr i) (hj : j < i.cnt.toNat) :
    (halfLen clr i.amp i.pol i.off (j == 0) (j + 1 == i.cnt.toNat)).toNat = segmentLen clr i j := by
  obtain ⟨hint, -, hlt⟩ := segmentLen_bounds h hj
  exact halfLen_toNat hint.symm hlt

/-- The displacement that the path applies: none on the low path (R68, R150). -/
def pathDisplacement (i : Instr) : Int := if i.amp then displacement i.pol i.off else 0

/-- The displacement comes off the first half-cycle and on to the last (R150). -/
theorem halfLenInt_eq_shift (clr : BitVec 16) (i : Instr) (first last : Bool) :
    halfLenInt clr i.amp i.pol i.off first last = (clr.toNat + 2 : Nat)
      - (if first then pathDisplacement i else 0) + (if last then pathDisplacement i else 0) := by
  unfold halfLenInt pathDisplacement
  cases i.amp <;> simp [nominalHalf_eq]

/-- So over all half-cycles it cancels out (R151, R152). -/
theorem sum_segmentLen (h : Accepted clr i) :
    ((List.range i.cnt.toNat).map (segmentLen clr i)).sum = i.cnt.toNat * (clr.toNat + 2) := by
  have hcnt := cnt_pos_of_accepted h
  have hlen : ∀ j ∈ Finset.range i.cnt.toNat, (segmentLen clr i j : Int) = (clr.toNat + 2 : Nat)
      - (if j = 0 then pathDisplacement i else 0) + (if j = i.cnt.toNat - 1 then pathDisplacement i else 0) := by
    intro j hj
    have hlast : (j + 1 == i.cnt.toNat) = decide (j = i.cnt.toNat - 1) := by
      rw [Bool.eq_iff_iff]
      simp
      omega
    rw [(segmentLen_bounds h (Finset.mem_range.1 hj)).1, halfLenInt_eq_shift, hlast]
    simp
  have hsum : ((∑ j ∈ Finset.range i.cnt.toNat, segmentLen clr i j : Nat) : Int)
      = (i.cnt.toNat * (clr.toNat + 2) : Nat) := by
    rw [Nat.cast_sum, Finset.sum_congr rfl hlen, Finset.sum_add_distrib, Finset.sum_sub_distrib, Finset.sum_ite_eq',
      Finset.sum_ite_eq', if_pos (Finset.mem_range.2 hcnt), if_pos (Finset.mem_range.2 (Nat.sub_lt hcnt Nat.one_pos))]
    simp
  exact Int.ofNat_inj.1 hsum

theorem segmentLen_low (hamp : i.amp = false) : segmentLen clr i j = nominalHalf clr := by
  rw [segmentLen, hamp, halfLenInt_low]
  rfl

/-- The levels of a half-cycle are as many as its ticks. -/
theorem length_halfLevels (p : Params) (clr : BitVec 16) (i : Instr) (j : Nat) :
    (halfLevels p clr i j).length = segmentLen clr i j := by
  unfold halfLevels
  split
  · exact List.length_replicate
  case isFalse hamp =>
    rw [List.length_append, List.length_replicate, List.length_replicate,
      segmentLen_low (Bool.eq_false_of_not_eq_true hamp)]
    omega

/-- The levels of an accepted descriptor are as many as its ticks. -/
theorem length_descriptorLevels (p : Params) (h : Accepted clr i) :
    (descriptorLevels p clr i).length = durationTicks clr i := by
  simp only [descriptorLevels, List.length_flatMap, length_halfLevels, sum_segmentLen h]
  rfl

end Sys2Proof.Machine
end

section
open Sys2Proof Machine

/-! The settled statements of 43_carrier_sequencer.md: how long a descriptor lasts. -/

/-- Settles O19: by `segmentLen_bounds` and `sum_segmentLen`. -/
theorem acceptedDescriptorDuration : Obligations.AcceptedDescriptorDuration := fun _ _ h =>
  ⟨fun _ hj => (segmentLen_bounds h hj).2, sum_segmentLen h⟩

end

section
/-! The waveform of whole descriptors (R151, R152, R156): ticks are put together to half-cycles, half-cycles to
descriptors, and descriptors to the words of the FIFO. The tick that dequeues a descriptor is the first tick of the
latched state, so every half-cycle is one of ticks in a half state. -/

namespace Sys2Proof.Machine

/-! ## Ticks one after another -/

/-- The clock's ticks lead from `s` to `t`, and `levels` are the pins after each. -/
inductive ClockDrives : State → List (BitVec 2) → State → Prop
  | done (s : State) : ClockDrives s [] s
  | tick {s u t : State} {levels : List (BitVec 2)} (hmove : nextMove s = .tick) (hstep : step s = .next u)
      (hrest : ClockDrives u levels t) : ClockDrives s (u.pins :: levels) t

section
variable {s u t : State} {levels levels' : List (BitVec 2)}

theorem ClockDrives.append (h : ClockDrives s levels u) (h' : ClockDrives u levels' t) :
    ClockDrives s (levels ++ levels') t := by
  induction h with
  | done => exact h'
  | tick hmove hstep _ ih => exact .tick hmove hstep (ih h')

/-- The ticks are a run of the machine. -/
theorem ClockDrives.run (h : ClockDrives s levels t) :
    Host.Core.run Sys2Proof.core levels.length s = .next t := by
  induction h with
  | done => rfl
  | tick _ hstep _ ih => exact (core_run_next _ hstep).trans ih

/-- Once a word has been dequeued their levels are the pin trace (R235). -/
theorem ClockDrives.pinTraceFrom (h : ClockDrives s levels t) :
    pinTraceFrom true levels.length s = levels := by
  induction h with
  | done => rfl
  | tick hmove hstep _ ih =>
    simp only [List.length_cons, Machine.pinTraceFrom, hstep, hmove, Bool.true_or, and_self, if_true, ih,
      List.singleton_append]

/-- Ticks of a state that takes the same step. -/
theorem ClockDrives.of_step_eq (hmove : nextMove s = .tick) (hstep : step s = step u)
    (h : ClockDrives u levels t) (hne : levels ≠ []) : ClockDrives s levels t := by
  cases h with
  | done => exact absurd rfl hne
  | tick _ hstep' hrest => exact .tick hmove (hstep.trans hstep') hrest

end

/-- The pin trace begins at the first dequeue, so where that is now it begins now (R235). -/
theorem pinTrace_of_dequeuesNow {s : State} (h : dequeuesNow s = true) (k : Nat) :
    pinTrace k s = pinTraceFrom true k s := by
  cases k with
  | zero => rfl
  | succ k => simp [pinTrace, pinTraceFrom, h]

/-- The clock alone moves. -/
abbrev ClockAlone (s : State) : Prop := s.par.valid = true ∧ s.agenda = []

/-- The pieces of state that are fixed while a descriptor runs. -/
def fixedPart (s : State) := (s.par, s.clr, s.fifo, s.agenda)

section
variable {s t : State}

theorem ClockAlone.moves (h : ClockAlone s) : Moves .tick s := ⟨h.1, by rw [nextMove, h.2]; rfl⟩

theorem ClockAlone.dropMove_eq (h : ClockAlone s) : dropMove s = s := by
  have htail : s.agenda.tail = s.agenda := by rw [h.2]; rfl
  exact congrArg (fun l => s.withAgenda l) htail

theorem ClockAlone.congr (h : ClockAlone s) (hfixed : fixedPart t = fixedPart s) : ClockAlone t := by
  simp only [fixedPart, Prod.mk.injEq] at hfixed
  obtain ⟨hpar, -, -, hagenda⟩ := hfixed
  exact ⟨hpar ▸ h.1, hagenda ▸ h.2⟩

theorem ClockAlone.step_of_half (h : ClockAlone s) (hhalf : isHalf s.st = true) : step s = .next (halfTick s) := by
  rw [Machine.step_of_half h.moves hhalf, h.dropMove_eq]

end

/-! ## The ticks of a half-cycle -/

/-- The level of the state in tick `k` of its half-cycle. -/
def levelAt (s : State) (k : Nat) : BitVec 2 := pinLevel { s with e := BitVec.ofNat 17 k }

/-- The level of a half state depends on the state, the tick and the parameters alone (R149). -/
theorem pinLevel_congr {s t : State} (hhalf : isHalf s.st = true) (hst : t.st = s.st) (he : t.e = s.e)
    (hpar : t.par = s.par) : pinLevel t = pinLevel s := by
  rw [pinLevel_of_half hhalf, pinLevel_of_half (hst ▸ hhalf), hst, he, hpar]

/-- A tick of a half-cycle does not look at the pins. -/
theorem halfTick_ignores_pins {s : State} (hhalf : isHalf s.st = true) (p : BitVec 2) :
    halfTick { s with pins := p } = halfTick s :=
  congrArg (fun l => { halfTick s with pins := l }) (pinLevel_congr (t := { s with pins := p }) hhalf rfl rfl rfl)

/-- Tick `k` of a half-cycle, and the ticks after it. -/
theorem ClockDrives.half_tick {s t : State} {k : Nat} {levels : List (BitVec 2)} (hclock : ClockAlone s)
    (hhalf : isHalf s.st = true) (he : s.e = BitVec.ofNat 17 k) (hrest : ClockDrives (halfTick s) levels t) :
    ClockDrives s (levelAt s k :: levels) t := by
  have hlevel : levelAt s k = (halfTick s).pins := congrArg (fun e => pinLevel { s with e := e }) he.symm
  rw [hlevel]
  exact .tick hclock.moves.2 (hclock.step_of_half hhalf) hrest

/-- The state before the last tick of a half-cycle, its tick `k`. -/
def lastTick (k : Nat) (s : State) : State := { s with y := 1#17, e := BitVec.ofNat 17 k }

/-- All ticks left of a half-cycle, from its tick `k` on: their levels, and where the last of them leads. -/
theorem ClockDrives.half {n k : Nat} {s : State} (hclock : ClockAlone s) (hhalf : isHalf s.st = true)
    (hy : s.y.toNat = n + 1) (he : s.e = BitVec.ofNat 17 k) :
    ClockDrives s ((List.range' k (n + 1)).map (levelAt s)) (halfTick (lastTick (k + n) s)) := by
  induction n generalizing s k with
  | zero =>
    have hlast : lastTick k s = s := by
      have hone : s.y = 1#17 := by bv_omega
      rw [lastTick, ← hone, ← he]
    rw [Nat.add_zero k, hlast]
    exact .half_tick hclock hhalf he (.done _)
  | succ n ih =>
    have hmore : s.y ≠ 1#17 := by bv_omega
    have hnext : halfTick s = { s with pins := pinLevel s, y := s.y - 1#17, e := s.e + 1#17 } :=
      halfTick_inside hmore
    have hhalf' : isHalf (halfTick s).st = true := by rw [hnext]; exact hhalf
    have hy' : (halfTick s).y.toNat = n + 1 := by rw [hnext]; bv_omega
    have he' : (halfTick s).e = BitVec.ofNat 17 (k + 1) := by rw [hnext]; bv_omega
    have hlevels : levelAt (halfTick s) = levelAt s := by
      rw [hnext]
      exact funext fun _ => pinLevel_congr hhalf rfl rfl rfl
    have hlast : halfTick (lastTick (k + 1 + n) (halfTick s)) = halfTick (lastTick (k + (n + 1)) s) := by
      rw [hnext, Nat.add_right_comm]
      exact halfTick_ignores_pins (s := lastTick (k + (n + 1)) s) hhalf (pinLevel s)
    have hrest := ih (s := halfTick s) (hclock.congr rfl) hhalf' hy' he'
    rw [hlevels, hlast] at hrest
    exact .half_tick hclock hhalf he hrest

/-! ## The levels of a half-cycle -/

/-- The state of half-cycle `j` of a descriptor, by its path and side (R148). -/
def halfState (amp : Bool) (j : Nat) : SeqState :=
  if amp then (if j % 2 = 0 then .highHalf1 else .highHalf2) else (if j % 2 = 0 then .lowHalf1 else .lowHalf2)

theorem isHalf_halfState (amp : Bool) (j : Nat) : isHalf (halfState amp j) = true := by
  unfold halfState
  split_ifs <;> rfl

theorem otherHalf_halfState (amp : Bool) (j : Nat) : otherHalf (halfState amp j) = halfState amp (j + 1) := by
  unfold halfState
  rcases Nat.mod_two_eq_zero_or_one j with h | h <;> cases amp <;> simp [h, Nat.add_mod, otherHalf]

theorem levelAt_high {s : State} {j : Nat} (hst : s.st = halfState true j) (k : Nat) : levelAt s k = sideLevel j := by
  rcases Nat.mod_two_eq_zero_or_one j with h | h <;> simp [levelAt, pinLevel, hst, halfState, sideLevel, h]

theorem levelAt_low {s : State} {j k : Nat} (hst : s.st = halfState false j) (hk : k < 2 ^ 17) :
    levelAt s k = if k < s.par.lowDriveTicks then sideLevel j else pinsZ := by
  have he : (BitVec.ofNat 17 k).toNat = k := Nat.mod_eq_of_lt hk
  rcases Nat.mod_two_eq_zero_or_one j with h | h <;>
    simp only [levelAt, pinLevel, hst, halfState, sideLevel, h, he, if_true, if_false, one_ne_zero, reduceCtorEq]

/-- A sequence that changes its value once. -/
theorem map_range_ite_lt {α : Type} (a b : α) (d n : Nat) :
    (List.range n).map (fun k => if k < d then a else b)
      = List.replicate (min d n) a ++ List.replicate (n - min d n) b := by
  refine List.ext_getElem (by simp) fun k hk _ => ?_
  have hkn : k < n := by simpa using hk
  simp [List.getElem_append, hkn]

/-- The levels of half-cycle `j` of a descriptor (R151, R152). -/
theorem map_levelAt_eq_halfLevels {i : Instr} {j : Nat} {s : State} (hst : s.st = halfState i.amp j)
    (hlen : segmentLen s.clr i j < 2 ^ 17) :
    (List.range (segmentLen s.clr i j)).map (levelAt s) = halfLevels s.par s.clr i j := by
  unfold halfLevels
  split
  case isTrue hamp =>
    rw [hamp] at hst
    rw [funext (levelAt_high hst), List.map_const', List.length_range]
  case isFalse hamp =>
    have hlow := Bool.eq_false_of_not_eq_true hamp
    have hnominal : segmentLen s.clr i j = nominalHalf s.clr := segmentLen_low hlow
    rw [hlow] at hst
    rw [hnominal] at hlen ⊢
    rw [← map_range_ite_lt]
    exact List.map_congr_left fun k hk => levelAt_low hst ((List.mem_range.1 hk).trans hlen)

/-! ## The half-cycles of a descriptor -/

/-- The sequencer is at the beginning of half-cycle `j` of the descriptor, and the clock alone moves. -/
structure AtHalf (i : Instr) (j : Nat) (s : State) : Prop where
  clock : ClockAlone s
  st : s.st = halfState i.amp j
  amp : s.amp = i.amp
  pol : s.pol = i.pol
  off : s.off = i.off
  x : s.x.toNat + j = i.cnt.toNat
  y : s.y.toNat = segmentLen s.clr i j
  e : s.e = 0#17

section
variable {i : Instr} {j : Nat} {s : State}

/-- A descriptor latched is at its first half-cycle (R149). -/
theorem AtHalf.latch (hclock : ClockAlone s) (hacc : Accepted s.clr i) :
    AtHalf i 0 (latch i.amp i.pol i.off i.cnt s) where
  clock := hclock.congr rfl
  st := rfl
  amp := rfl
  pol := rfl
  off := rfl
  x := rfl
  y := by
    have hlast : (i.cnt == 1#22) = (0 + 1 == i.cnt.toNat) := by
      rw [Bool.eq_iff_iff, beq_iff_eq, beq_iff_eq]
      bv_omega
    have hlen := halfLen_toNat_of_accepted hacc (cnt_pos_of_accepted hacc)
    rw [← hlast] at hlen
    exact hlen
  e := rfl

/-- The ticks of a half-cycle drive its levels. -/
theorem AtHalf.drives (h : AtHalf i j s) (hacc : Accepted s.clr i) (hj : j < i.cnt.toNat) :
    ClockDrives s (halfLevels s.par s.clr i j) (halfTick (lastTick (segmentLen s.clr i j - 1) s)) := by
  obtain ⟨-, hpos, hlt⟩ := segmentLen_bounds hacc hj
  have hlen : segmentLen s.clr i j - 1 + 1 = segmentLen s.clr i j := Nat.sub_add_cancel hpos
  have hhalf : isHalf s.st = true := h.st ▸ isHalf_halfState i.amp j
  have hticks := ClockDrives.half h.clock hhalf (h.y.trans hlen.symm) h.e
  rwa [hlen, Nat.zero_add, ← List.range_eq_range', map_levelAt_eq_halfLevels h.st hlt] at hticks

/-- The last tick of a half-cycle that is not the descriptor's last leads to the next. -/
theorem AtHalf.next (h : AtHalf i j s) (hacc : Accepted s.clr i) (hj : j + 1 < i.cnt.toNat) (k : Nat) :
    AtHalf i (j + 1) (halfTick (lastTick k s)) := by
  have hcount := h.x
  have hmore : (lastTick k s).x ≠ 1#22 := by
    change s.x ≠ 1#22
    bv_omega
  have hleft : (s.x - 1#22).toNat + (j + 1) = i.cnt.toNat := by bv_omega
  have hlast : (j + 1 + 1 == i.cnt.toNat) = (s.x - 1#22 == 1#22) := by
    rw [Bool.eq_iff_iff, beq_iff_eq, beq_iff_eq]
    bv_omega
  have hlen := halfLen_toNat_of_accepted hacc hj
  rw [hlast, ← h.amp, ← h.pol, ← h.off] at hlen
  rw [halfTick_endsHalf rfl hmore]
  exact { clock := h.clock.congr rfl
          st := (congrArg otherHalf h.st).trans (otherHalf_halfState i.amp j)
          amp := h.amp
          pol := h.pol
          off := h.off
          x := hleft
          y := hlen
          e := rfl }

/-- From half-cycle `j` on, the `n + 1` half-cycles that are left drive their levels, and the descriptor is done. -/
theorem AtHalf.drives_rest {n : Nat} (h : AtHalf i j s) (hacc : Accepted s.clr i) (hn : j + (n + 1) = i.cnt.toNat) :
    ∃ t, ClockDrives s ((List.range' j (n + 1)).flatMap (halfLevels s.par s.clr i)) t
      ∧ t.st = .setupDecode ∧ fixedPart t = fixedPart s := by
  induction n generalizing j s with
  | zero =>
    have hone : s.x = 1#22 := by
      have hcount := h.x
      bv_omega
    refine ⟨halfTick (lastTick (segmentLen s.clr i j - 1) s), ?_, ?_, rfl⟩
    · simpa using h.drives hacc (by omega)
    · rw [halfTick_endsDescriptor (s := lastTick _ s) rfl hone]
  | succ n ih =>
    obtain ⟨t, hrest, hst, hfixed⟩ := ih (h.next hacc (by omega) (segmentLen s.clr i j - 1)) hacc (by omega)
    exact ⟨t, (h.drives hacc (by omega)).append hrest, hst, hfixed⟩

end

/-! ## The words of the FIFO -/

theorem descriptorLevels_ne_nil (p : Params) {clr : BitVec 16} {i : Instr} (hacc : Accepted clr i) :
    descriptorLevels p clr i ≠ [] := by
  have hpos : 0 < durationTicks clr i := Nat.mul_pos (cnt_pos_of_accepted hacc) (Nat.succ_pos _)
  rw [← length_descriptorLevels p hacc] at hpos
  exact List.ne_nil_of_length_pos hpos

/-- The ticks of an accepted descriptor at the head of the FIFO, the dequeue tick first, drive its levels (R149,
R155). -/
theorem ClockDrives.descriptor {s : State} {w : Word} {rest : List Word} (hclock : ClockAlone s)
    (hst : s.st = .setupDecode) (hfifo : s.fifo = w :: rest) (hacc : Accepted s.clr (decodeWord w)) :
    ∃ t, ClockDrives s (descriptorLevels s.par s.clr (decodeWord w)) t
      ∧ t.st = .setupDecode ∧ fixedPart t = fixedPart { s with fifo := rest } := by
  have hdeq : Dequeues w rest s := ⟨hclock.moves, hst, hfifo⟩
  generalize hi : decodeWord w = i at hacc ⊢
  obtain ⟨n, hn⟩ : ∃ n, i.cnt.toNat = n + 1 := Nat.exists_eq_add_one_of_ne_zero (cnt_pos_of_accepted hacc).ne'
  have hlatched : AtHalf i 0 (Machine.latch i.amp i.pol i.off i.cnt { s with fifo := rest }) := .latch hclock hacc
  have hstep : step s = step (Machine.latch i.amp i.pol i.off i.cnt { s with fifo := rest }) := by
    have hhalf := hlatched.st ▸ isHalf_halfState i.amp 0
    rw [step_of_dequeues hdeq, hclock.dropMove_eq, hi, exec_eq, hlatched.clock.step_of_half hhalf]
    exact beginDescriptor_accepted i.pol hacc.1 hacc.2
  obtain ⟨t, hticks, hst', hfixed⟩ := hlatched.drives_rest hacc ((Nat.zero_add _).trans hn.symm)
  rw [← hn, ← List.range_eq_range'] at hticks
  exact ⟨t, .of_step_eq hclock.moves.2 hstep hticks (descriptorLevels_ne_nil s.par hacc), hst', hfixed⟩

/-- The ticks of the accepted words at the head of the FIFO drive the words' levels in order (R156). -/
theorem ClockDrives.words {ws rest : List Word} {s : State} (hclock : ClockAlone s) (hst : s.st = .setupDecode)
    (hfifo : s.fifo = ws ++ rest) (hacc : ∀ w ∈ ws, Accepted s.clr (decodeWord w)) :
    ∃ t, ClockDrives s (ws.flatMap fun w => descriptorLevels s.par s.clr (decodeWord w)) t
      ∧ t.st = .setupDecode ∧ fixedPart t = fixedPart { s with fifo := rest } := by
  induction ws generalizing s with
  | nil =>
    refine ⟨s, .done s, hst, ?_⟩
    rw [← hfifo.trans (List.nil_append rest)]
  | cons w ws ih =>
    obtain ⟨hfirst, hothers⟩ := List.forall_mem_cons.1 hacc
    obtain ⟨u, hticks, hst', hfixed⟩ := ClockDrives.descriptor hclock hst hfifo hfirst
    have hclock' : ClockAlone u := ClockAlone.congr (s := { s with fifo := ws ++ rest }) hclock hfixed
    simp only [fixedPart, Prod.mk.injEq] at hfixed
    obtain ⟨hpar, hclr, hrest, hagenda⟩ := hfixed
    obtain ⟨t, hticks', hst'', hfixed'⟩ := ih hclock' hst' hrest (by rwa [hclr])
    rw [hpar, hclr] at hticks'
    refine ⟨t, hticks.append hticks', hst'', hfixed'.trans ?_⟩
    simp only [fixedPart, hpar, hclr, hagenda]

/-- Accepted words drive as many levels as they last ticks. -/
theorem length_words_levels (p : Params) {clr : BitVec 16} {ws : List Word}
    (hacc : ∀ w ∈ ws, Accepted clr (decodeWord w)) :
    (ws.flatMap fun w => descriptorLevels p clr (decodeWord w)).length
      = (ws.map fun w => durationTicks clr (decodeWord w)).sum := by
  rw [List.length_flatMap]
  exact congrArg List.sum (List.map_congr_left fun w hw => length_descriptorLevels p (hacc w hw))

/-- In `SetupDecode`, the pin trace of ticks that begin with a dequeue, or of none, is their levels (R235). -/
theorem ClockDrives.pinTrace {s t : State} {levels : List (BitVec 2)} (h : ClockDrives s levels t)
    (hbegin : levels = [] ∨ dequeuesNow s = true) : pinTrace levels.length s = levels := by
  obtain rfl | hnow := hbegin
  · rfl
  · rw [pinTrace_of_dequeuesNow hnow, h.pinTraceFrom]

end Sys2Proof.Machine
end

section
open Sys2Proof Machine

/-! The settled statements of 43_carrier_sequencer.md: the whole waveform. -/

/-- Settles O20: the ticks of the words drive their levels, and the first of them, if there is one, dequeues. -/
theorem pinsFollowSegments : Obligations.PinsFollowSegments := by
  intro ws rest s hp hagenda hst hfifo hacc
  have hclock : ClockAlone s := ⟨hp, hagenda⟩
  obtain ⟨t, hticks, hst', hfixed⟩ := ClockDrives.words hclock hst hfifo hacc
  simp only [fixedPart, Prod.mk.injEq] at hfixed
  obtain ⟨-, hclr, hrest, -⟩ := hfixed
  rw [← length_words_levels s.par hacc]
  refine ⟨hticks.pinTrace ?_, t, hticks.run, hst', hrest, hclr⟩
  cases ws with
  | nil => exact .inl rfl
  | cons w ws => exact .inr (by simp [dequeuesNow, hclock.moves.2, hst, isEmpty, hfifo])

end

section
/-! Moves that are not enabled (log entry 3): each leaves the state as it is. -/

namespace Sys2Proof.Machine

variable {s : State}

theorem doLfsrStep_of_done (h : 512 ≤ s.n) : doLfsrStep s = .next s :=
  congrArg Host.Outcome.next (if_neg (Nat.not_lt.2 h))

theorem doLfsrGen_of_begun (h : s.n ≠ 0 ∨ s.lfsr ≠ 0#9) : doLfsrGen s = .next s :=
  congrArg Host.Outcome.next (if_neg fun ⟨hn, hreg⟩ => h.elim (absurd hn) (absurd hreg))

theorem doTabBuild_of_built (h : s.tabValid = true) : doTabBuild s = .next s := if_pos h

theorem doActivate_of_not_enabled (second : Nat) (h : s.ms ≠ .idle ∨ slotAt s s.active = none ∨ s.tabValid = false
    ∨ s.clrValid = false ∨ s.edge = false) : doActivate second s = .next s := by
  have hoff : activateEnabled s = false := by
    obtain h | h | h | h | h := h <;> simp [activateEnabled, h]
  simp [doActivate, hoff]

theorem doPushNext_of_not_enabled (h : s.ms ≠ .streamingCurrent ∨ s.fifo.length = s.par.fifoDepth) :
    doPushNext s = .next s := by
  have hoff : pushNextEnabled s = false := by
    obtain h | h := h
    · simp [pushNextEnabled, h]
    · simp [pushNextEnabled, isFull_iff.2 h]
  simp [doPushNext, hoff]

theorem doSwap_of_not_swapping (h : s.ms ≠ .swapping) : doSwap s = .next s := if_neg h

theorem doBgStart_of_not_enabled {r : TsAnswer}
    (h : s.ms ≠ .streamingCurrent ∨ s.bg ≠ .bgNone ∨ r.asked ≠ s.par.lookahead) : doBgStart r s = .next s := by
  have hoff : bgStartEnabled r s = false := by
    obtain h | h | h := h <;> simp [bgStartEnabled, h]
  simp [doBgStart, hoff]

theorem doBgFinish_of_no_task {j : Nat} (h : s.tasks.length ≤ j) : doBgFinish j s = .next s := by
  rw [doBgFinish, List.getElem?_eq_none h]

theorem doPrime_of_not_enabled {r : TsAnswer} (h : s.ms ≠ .idle ∨ s.primed = true ∨ r.asked ≠ s.par.lookahead) :
    doPrime r s = .next s := by
  have hoff : primeEnabled r s = false := by
    obtain h | h | h := h <;> simp [primeEnabled, h]
  simp [doPrime, hoff]

end Sys2Proof.Machine
end

section
open Sys2Proof Machine

/-! The settled statements of 43_carrier_sequencer.md: the ticks that do nothing, half-cycle lengths, the commands,
and the moves that are not enabled. -/

/-- Settles O17: by the two cases of a tick that does nothing. -/
theorem idleTicksChangeNothing : Obligations.IdleTicksChangeNothing := by
  intro s hmoves hidle
  rw [step_of_moves hmoves]
  obtain hst | ⟨hst, hfifo⟩ := hidle
  · exact tickWith_of_stopped exec (s := dropMove s) hst
  · exact tickWith_of_empty exec (s := dropMove s) hst hfifo

/-- Settles O18: the displacement comes off the first half-cycle and on to the last, by path and polarity. -/
theorem halfCycleLength : Obligations.HalfCycleLength := by
  intro clr pol off first last
  refine ⟨rfl, rfl, ?negative, halfLenInt_same clr true pol off true, ?plain, fun p => nominalHalf_clrPreload⟩
  case negative =>
    cases first <;> cases last <;> simp [halfLenInt, displacement_negative, nominalHalf_eq, sub_eq_add_neg]
  case plain =>
    have hnone : displacement pol 0#8 = 0 := by cases pol <;> rfl
    simp [halfLenInt, nominalHalf_eq, hnone]

/-- Settles O22: the flags of `STATUS` are decided by what they say. -/
theorem statusReadsOnly : Obligations.StatusReadsOnly := by
  refine ⟨fun s => step_of_moves, fun s => ?_, rfl⟩
  simp only [status, isEmpty, isFull, isRunning, beq_eq_decide, bne, decide_not]

/-- Settles O23: by the two cases of `PUSH`. -/
theorem pushAppendsOrIsHeld : Obligations.PushAppendsOrIsHeld := by
  intro s w hmoves
  rw [step_of_moves hmoves]
  exact ⟨doPush_of_not_full (s := dropMove s) w, doPush_of_full (s := dropMove s) w⟩

/-- Settles O24: by the two cases of `PRELOAD`. -/
theorem preloadOnlyWhileStopped : Obligations.PreloadOnlyWhileStopped := by
  intro s v hmoves
  rw [step_of_moves hmoves]
  exact ⟨doPreload_of_stopped (s := dropMove s) v, doPreload_of_running (s := dropMove s) v⟩

/-- Settles O25: by the three cases of `START`. -/
theorem startNeedsPreload : Obligations.StartNeedsPreload := by
  intro s hmoves
  rw [step_of_moves hmoves]
  exact ⟨doStart_of_not_preloaded (s := dropMove s), doStart_of_stopped (s := dropMove s),
    doStart_of_running (s := dropMove s)⟩

/-- Settles O26: by the frame of `STOP`. -/
theorem stopReleasesAndClears : Obligations.StopReleasesAndClears := by
  intro s hmoves
  rw [step_of_moves hmoves]
  exact ⟨_, rfl, doStop_cases rfl⟩

/-- Settles O48: by the lemmas above, each for the state without the move's place in the agenda. -/
theorem notEnabledMovesChangeNothing : Obligations.NotEnabledMovesChangeNothing := fun s =>
  ⟨fun w hm h => (step_of_moves hm).trans (doPush_of_full (s := dropMove s) w h),
    fun hm h => (step_of_moves hm).trans (doLfsrStep_of_done (s := dropMove s) h),
    fun hm h => (step_of_moves hm).trans (doLfsrGen_of_begun (s := dropMove s) h),
    fun hm h => (step_of_moves hm).trans (doTabBuild_of_built (s := dropMove s) h),
    fun n hm h => (step_of_moves hm).trans (doActivate_of_not_enabled (s := dropMove s) n h),
    fun hm h => (step_of_moves hm).trans (doPushNext_of_not_enabled (s := dropMove s) h),
    fun hm h => (step_of_moves hm).trans (doSwap_of_not_swapping (s := dropMove s) h),
    fun _ hm h => (step_of_moves hm).trans (doBgStart_of_not_enabled (s := dropMove s) h),
    fun _ hm h => (step_of_moves hm).trans (doBgFinish_of_no_task (s := dropMove s) h),
    fun _ hm h => (step_of_moves hm).trans (doPrime_of_not_enabled (s := dropMove s) h)⟩

end

section
/-! The moves of the MinuteScheduler where they are enabled (R171 to R182): one equation for each of their cases. -/

namespace Sys2Proof.Machine

variable {s : State}

/-! ## `ACTIVATE` (R171) -/

theorem activateEnabled_iff : activateEnabled s = true ↔ s.ms = .idle ∧ (slotAt s s.active).isSome = true
    ∧ s.tabValid = true ∧ s.clrValid = true ∧ s.edge = true := by
  simp only [activateEnabled, Bool.and_eq_true, beq_iff_eq, and_assoc]

theorem doActivate_of_enabled {second : Nat} (h : activateEnabled s = true) (hsecond : second ≤ 59) :
    doActivate second s = .next { s with
      startOffset := second, i := second, q := 0, ms := .streamingCurrent, edge := false,
      st := if s.st = .stopped then .setupDecode else s.st,
      pushedAny := if s.st = .stopped then false else s.pushedAny,
      wasStarted := if s.st = .stopped then true else s.wasStarted } := by
  have hin : ¬Config.vectorLen ≤ second := Nat.not_le.2 (Nat.lt_succ_of_le hsecond)
  rw [doActivate, if_pos h, if_neg hin]
  by_cases hst : s.st = .stopped <;> simp [startSequencer, isRunning, hst]

theorem doActivate_of_late {second : Nat} (h : activateEnabled s = true) (hsecond : 60 ≤ second) :
    doActivate second s = .refused .indexOutOfRange := by
  rw [doActivate, if_pos h]
  exact if_pos hsecond

/-! ## `SWAP` (R174) -/

section
variable (hms : s.ms = .swapping)
include hms

theorem doSwap_of_ok (hbg : s.bg = .bgOk) : doSwap s = .next (nextMinute (flipActive s)) := by
  simp [doSwap, hms, hbg]

theorem doSwap_of_invalid (hbg : s.bg = .bgInvalid) : doSwap s = .next (nextMinute s) := by
  simp [doSwap, hms, hbg]

theorem doSwap_of_unfinished (hbg : s.bg = .bgRunning ∨ s.bg = .bgNone) : doSwap s = swapOverrun s := by
  obtain hbg | hbg := hbg <;> simp [doSwap, hms, hbg]

end

theorem swapOverrun_of_written (h : (slotAt s (!s.active)).isSome = true) :
    swapOverrun s = .next (nextMinute (flipActive (raiseError .scheduleOverrun (.generation s.minuteGen) s))) :=
  if_neg (by simp [Option.isSome_iff_ne_none.1 h])

theorem swapOverrun_of_never_written (h : slotAt s (!s.active) = none) :
    swapOverrun s = .refused .inactiveSlotNeverWritten :=
  if_pos (Option.isNone_iff_eq_none.2 h)

/-! ## `BG.START` (R175, R181) -/

theorem bgStartEnabled_iff {r : TsAnswer} : bgStartEnabled r s = true
    ↔ s.ms = .streamingCurrent ∧ s.bg = .bgNone ∧ r.asked = s.par.lookahead := by
  simp only [bgStartEnabled, Bool.and_eq_true, beq_iff_eq, and_assoc]

section
variable {r : TsAnswer} (henabled : bgStartEnabled r s = true)
include henabled

theorem doBgStart_of_reading {t : TimeTuple} {d : Bool} (hr : r.reading = some (t, d)) :
    doBgStart r s = .next (startTask t d (setTimeBase t d s.minuteGen s)) := by
  simp [doBgStart, henabled, hr]

theorem doBgStart_of_unavailable {b : TimeBase} (hr : r.reading = none) (hb : s.timeBase = some b) :
    doBgStart r s = .next (startTask (freeRun b s.minuteGen).1 (freeRun b s.minuteGen).2
      (raiseError .timeSourceUnavailable .nothing s)) := by
  simp [doBgStart, henabled, hr, hb]

theorem doBgStart_of_no_base (hr : r.reading = none) (hb : s.timeBase = none) :
    doBgStart r s = .refused .noTimeBase := by
  simp [doBgStart, henabled, hr, hb]

end

/-! ## `BG.FINISH` (R177 to R179, R182) -/

section
variable {j : Nat} {k : Task} (hk : s.tasks[j]? = some k)
include hk

theorem doBgFinish_of_task : doBgFinish j s = .next (moveIn k (enc s.par.yearMax k.tuple k.summer)
    (reportEnc k.tuple (enc s.par.yearMax k.tuple k.summer) { s with tasks := s.tasks.eraseIdx j })) := by
  simp [doBgFinish, hk]

/-- A vector of this minute is moved in whole (R178). -/
theorem doBgFinish_of_vector {v : TimecodeVector} (hv : enc s.par.yearMax k.tuple k.summer = .ok v)
    (hgen : k.gen = s.minuteGen) :
    doBgFinish j s = .next { setSlot k.target v s with tasks := s.tasks.eraseIdx j, bg := .bgOk } := by
  rw [doBgFinish_of_task hk, hv]
  exact congrArg Host.Outcome.next (if_neg (not_not.2 hgen))

/-- A late vector is dropped (R179). -/
theorem doBgFinish_of_late_vector {v : TimecodeVector} (hv : enc s.par.yearMax k.tuple k.summer = .ok v)
    (hgen : k.gen ≠ s.minuteGen) : doBgFinish j s = .next { s with tasks := s.tasks.eraseIdx j } := by
  rw [doBgFinish_of_task hk, hv]
  exact congrArg Host.Outcome.next (if_pos hgen)

/-- An error is reported; one of this minute marks the minute (R182, R201), a late one does not (R179). -/
theorem doBgFinish_of_error {f : Fault} (hv : enc s.par.yearMax k.tuple k.summer = .error f) :
    doBgFinish j s = .next { raiseError f (.tuple k.tuple) s with
      tasks := s.tasks.eraseIdx j, bg := if k.gen = s.minuteGen then .bgInvalid else s.bg } := by
  rw [doBgFinish_of_task hk, hv]
  by_cases hgen : k.gen = s.minuteGen <;> simp [moveIn, reportEnc, raiseError, hgen]

end

/-! ## `PUSHNEXT` (R172, R180, R202) -/

@[simp] theorem sampleEmpty_ms (s : State) : (sampleEmpty s).ms = s.ms := by rw [(sampleEmpty_frame s).1]
@[simp] theorem sampleEmpty_i (s : State) : (sampleEmpty s).i = s.i := by rw [(sampleEmpty_frame s).1]
@[simp] theorem sampleEmpty_q (s : State) : (sampleEmpty s).q = s.q := by rw [(sampleEmpty_frame s).1]

/-- What the sample of `empty` counts and reports (R180, R202). -/
theorem sampleEmpty_counts (s : State) :
    (s.pushedAny = true ∧ s.fifo = [] → (sampleEmpty s).cntUnderrun = s.cntUnderrun + 1
      ∧ (sampleEmpty s).reports = s.reports ++ [⟨.queueUnderrun, .indices s.i s.q⟩])
    ∧ (¬(s.pushedAny = true ∧ s.fifo = []) →
      (sampleEmpty s).cntUnderrun = s.cntUnderrun ∧ (sampleEmpty s).reports = s.reports) := by
  obtain ⟨hany, hempty, h⟩ | ⟨hnot, h⟩ := sampleEmpty_cases s <;> rw [h]
  · exact ⟨fun _ => ⟨rfl, rfl⟩, fun hnot => absurd ⟨hany, hempty⟩ hnot⟩
  · exact ⟨fun hboth => absurd hboth hnot, fun _ => ⟨rfl, rfl⟩⟩

@[simp] theorem advanceIndices_cntUnderrun (len : Nat) (s : State) :
    (advanceIndices len s).cntUnderrun = s.cntUnderrun := by rw [advanceIndices_frame len s]
@[simp] theorem advanceIndices_reports (len : Nat) (s : State) :
    (advanceIndices len s).reports = s.reports := by rw [advanceIndices_frame len s]

/-- Where the indices go on to: the next word, the next second, or the swap (R172). -/
theorem advanceIndices_indices (len : Nat) (hms : s.ms = .streamingCurrent) :
    (s.q + 1 ≠ len → (advanceIndices len s).q = s.q + 1 ∧ (advanceIndices len s).i = s.i
      ∧ (advanceIndices len s).ms = .streamingCurrent)
    ∧ (s.q + 1 = len → s.i ≠ 59 → (advanceIndices len s).q = 0 ∧ (advanceIndices len s).i = s.i + 1
      ∧ (advanceIndices len s).ms = .streamingCurrent)
    ∧ (s.q + 1 = len → s.i = 59 → (advanceIndices len s).q = 0 ∧ (advanceIndices len s).i = 59
      ∧ (advanceIndices len s).ms = .swapping) := by
  obtain ⟨hq, h⟩ | ⟨hq, hi, h⟩ | ⟨hq, hi, h⟩ := advanceIndices_cases len s <;> rw [h]
  · simp [hq, hms]
  · simp [hq, hi, hms]
  · simp [hq, hi]

end Sys2Proof.Machine
end

section
open Sys2Proof Machine

/-! The settled statements of 44_minute_scheduler.md: what each move does. -/

/-- Settles O42: by the two cases of an enabled `ACTIVATE`. -/
theorem activateEffect : Obligations.ActivateEffect := by
  refine ⟨fun s => step_of_moves, fun s second hmoves hms hslot htab hclr hedge => ?_⟩
  have henabled : activateEnabled (dropMove s) = true := activateEnabled_iff.2 ⟨hms, hslot, htab, hclr, hedge⟩
  rw [step_of_moves hmoves]
  exact ⟨doActivate_of_enabled henabled, doActivate_of_late henabled⟩

/-- Settles O43: the sample decides the count and the report, the index advance the rest. -/
theorem pushNextEffect : Obligations.PushNextEffect := by
  intro s v sym seq w hmoves hms hfull hv hsym hseq hw
  have hpush : doPushNext (dropMove s)
      = .next (advanceIndices seq.length (streamWord w (sampleEmpty (dropMove s)))) :=
    doPushNext_pushes hms (Bool.eq_false_of_not_eq_true (mt isFull_iff.1 hfull)) hv hsym hseq hw
  refine ⟨_, (step_of_moves hmoves).trans hpush, ?frame, ?_⟩
  case frame =>
    rw [advanceIndices_frame seq.length, (sampleEmpty_frame (dropMove s)).1]
    rfl
  obtain ⟨hcounted, hkept⟩ := sampleEmpty_counts (dropMove s)
  have hindices := advanceIndices_indices (s := streamWord w (sampleEmpty (dropMove s))) seq.length (by simpa using hms)
  rw [advanceIndices_cntUnderrun, advanceIndices_reports]
  exact ⟨hcounted, hkept, by simpa using hindices⟩

/-- Settles O44: by the cases of `bg`, and, for an overrun, of the inactive slot. -/
theorem swapOutcomes : Obligations.SwapOutcomes := by
  intro s hmoves hms
  rw [step_of_moves hmoves]
  refine ⟨doSwap_of_ok (s := dropMove s) hms, doSwap_of_invalid (s := dropMove s) hms, fun hbg => ?_⟩
  have hoverrun : doSwap (dropMove s) = swapOverrun (dropMove s) := doSwap_of_unfinished hms hbg
  exact ⟨fun h => hoverrun.trans (swapOverrun_of_written h), fun h => hoverrun.trans (swapOverrun_of_never_written h)⟩

/-- Settles O45: by the reading, and, where there is none, by the time base. -/
theorem bgStartEffect : Obligations.BgStartEffect := by
  intro s r hmoves hasked hms hbg
  have henabled : bgStartEnabled r (dropMove s) = true := bgStartEnabled_iff.2 ⟨hms, hbg, hasked⟩
  rw [step_of_moves hmoves]
  exact ⟨fun t d => doBgStart_of_reading henabled, fun b => doBgStart_of_unavailable henabled,
    doBgStart_of_no_base henabled⟩

/-- Settles O46: by what `ENC` answers, and whether the task is of this minute. -/
theorem bgFinishEffect : Obligations.BgFinishEffect := by
  intro s j k hmoves hk
  rw [step_of_moves hmoves]
  exact ⟨fun v hv => ⟨doBgFinish_of_vector (s := dropMove s) hk hv, doBgFinish_of_late_vector (s := dropMove s) hk hv⟩,
    fun hbad => doBgFinish_of_error (s := dropMove s) hk (enc_of_not_valid (Bool.eq_false_iff.1 hbad) _)⟩

end

section
/-! What is left of the minute (R172, R184): `PUSHNEXT` takes its first word, and no other move of the agents but a
`SWAP` touches it. -/

namespace Sys2Proof.Machine

/-! ## The symbols of an encoded vector (R61, R63) -/

section
variable {yearMax : Nat} {v : TimecodeVector} (henc : EncVector yearMax v)
include henc

theorem EncVector.length_eq : v.length = 60 := by
  obtain ⟨_, _, h⟩ := henc
  exact enc_length h

theorem EncVector.ne_reserved3 {sym : Symbol} (h : sym ∈ v) : sym ≠ .reserved3 := by
  obtain ⟨t, d, hv⟩ := henc
  rw [(enc_ok hv).2, List.mem_append, List.mem_map, List.mem_singleton] at h
  obtain ⟨b, -, rfl⟩ | rfl := h
  · cases b <;> decide
  · decide

/-- The minute mark stands in second 59 alone (R94). -/
theorem EncVector.count_minuteMark : v.count .minuteMark = 1 := by
  obtain ⟨t, d, hv⟩ := henc
  have hbits : .minuteMark ∉ (encBits t d).map symOf := by
    rw [List.mem_map]
    rintro ⟨b, -, hb⟩
    cases b <;> cases hb
  rw [(enc_ok hv).2, List.count_append, List.count_eq_zero.2 hbits]
  rfl

/-- Every second of the vector has its words (R128). -/
theorem EncVector.lookup_eq {s : State} {j : Nat} {sym : Symbol} (hvalid : s.tabValid = true)
    (hsym : v[j]? = some sym) : lookup s sym j = .ok (secondWords s sym j) := by
  obtain ⟨hlt, -⟩ := List.getElem?_eq_some_iff.1 hsym
  exact lookup_ok.2 ⟨hvalid, henc.length_eq ▸ hlt, henc.ne_reserved3 (List.mem_of_getElem? hsym), rfl⟩

end

/-! ## The words of the seconds -/

theorem wordsOfSecond_of_symbol (s : State) {v : TimecodeVector} {j : Nat} {sym : Symbol} (h : v[j]? = some sym) :
    wordsOfSecond s v j = secondWords s sym j := by
  simp [wordsOfSecond, h]

/-- The words of a second are read from the table, by the parameters' `PM_SELECT` (R128, R129). -/
theorem wordsOfSecond_congr {s t : State} (htab : t.tab = s.tab) (hpar : t.par = s.par) :
    wordsOfSecond t = wordsOfSecond s := by
  funext v j
  simp only [wordsOfSecond, secondWords, amplitudeWords, pmWords, tabAt, htab, hpar]

/-- What is true of a second's words by its symbol alone is read off the vector, second by second. -/
theorem map_wordsOfSecond {α : Type} {f : List Word → α} {g : Symbol → α} {s : State} {v : TimecodeVector}
    (hlen : v.length = 60) (h : ∀ sym ∈ v, ∀ j, f (secondWords s sym j) = g sym) :
    (List.range 60).map (fun j => f (wordsOfSecond s v j)) = v.map g := by
  refine List.ext_getElem (by simp [hlen]) fun j _ hj => ?_
  rw [List.length_map] at hj
  simp only [List.getElem_map, List.getElem_range, wordsOfSecond_of_symbol s (List.getElem?_eq_getElem hj)]
  exact h _ (List.getElem_mem hj) j

/-- The lengths of the seconds of a minute, by their symbols (R128). -/
theorem sum_secondLen {v : TimecodeVector} (h : ∀ sym ∈ v, sym ≠ .reserved3) :
    (v.map secondLen).sum = 515 * v.count .zero + 514 * v.count .one + 515 * v.count .minuteMark := by
  induction v with
  | nil => rfl
  | cons sym rest ih =>
    rw [List.forall_mem_cons] at h
    rw [List.map_cons, List.sum_cons, ih h.2]
    cases sym with
    | zero | one | minuteMark => simp [secondLen]; omega
    | reserved3 => exact absurd rfl h.1

theorem totalCount_flatMap {α : Type} (l : List α) (f : α → List Word) :
    totalCount (l.flatMap f) = (l.map (fun a => totalCount (f a))).sum := by
  induction l with
  | nil => rfl
  | cons a rest ih => simpa [totalCount] using ih

/-- The words of the seconds after second `i`. -/
def laterWords (s : State) (v : TimecodeVector) (i : Nat) : List Word :=
  ((List.range 60).drop (i + 1)).flatMap (wordsOfSecond s v)

theorem laterWords_of_lt (s : State) (v : TimecodeVector) {i : Nat} (h : i < 59) :
    laterWords s v i = wordsOfSecond s v (i + 1) ++ laterWords s v (i + 1) := by
  have hin : i + 1 < (List.range 60).length := List.length_range ▸ Nat.succ_lt_succ h
  rw [laterWords, List.drop_eq_getElem_cons hin, List.getElem_range, List.flatMap_cons]
  rfl

theorem laterWords_last (s : State) (v : TimecodeVector) : laterWords s v 59 = [] := rfl

/-! ## What is left of the minute -/

theorem minuteRest_of_streaming {s : State} {v : TimecodeVector} (hms : s.ms = .streamingCurrent)
    (hv : slotAt s s.active = some v) :
    minuteRest s = (wordsOfSecond s v s.i).drop s.q ++ laterWords s v s.i := by
  simp [minuteRest, hms, hv, laterWords]

theorem minuteRest_of_swapping {s : State} (hms : s.ms = .swapping) : minuteRest s = [] := by
  simp [minuteRest, hms]

/-- The pieces of state, beside the active slot, that what is left of the minute depends on. -/
def streamPart (s : State) := (s.ms, s.active, s.i, s.q, s.tab, s.par)

theorem minuteRest_congr {s t : State} (hpart : streamPart t = streamPart s)
    (hslot : slotAt t s.active = slotAt s s.active) : minuteRest t = minuteRest s := by
  simp only [streamPart, Prod.mk.injEq] at hpart
  obtain ⟨hms, hactive, hind, hq, htab, hpar⟩ := hpart
  simp only [minuteRest, hms, hactive, hind, hq, hslot, wordsOfSecond_congr htab hpar]

/-- The feeder stands at a word of the second whose symbol is `sym`, of the vector `v` in the active slot (R172). -/
structure AtWord (v : TimecodeVector) (sym : Symbol) (s : State) : Prop where
  streaming : s.ms = .streamingCurrent
  slot : slotAt s s.active = some v
  symbol : v[s.i]? = some sym
  word : s.q < secondLen sym

section
variable {v : TimecodeVector} {sym : Symbol} {s : State} (h : AtWord v sym s)
include h

/-- The word the feeder stands at, and what is left of the minute behind it. -/
theorem AtWord.minuteRest_eq : ∃ w, (secondWords s sym s.i)[s.q]? = some w
    ∧ minuteRest s = w :: ((secondWords s sym s.i).drop (s.q + 1) ++ laterWords s v s.i) := by
  have hq : s.q < (secondWords s sym s.i).length := by
    rw [secondWords_length]
    exact h.word
  refine ⟨_, List.getElem?_eq_getElem hq, ?_⟩
  rw [minuteRest_of_streaming h.streaming h.slot, wordsOfSecond_of_symbol s h.symbol, List.drop_eq_getElem_cons hq]
  rfl

theorem AtWord.minuteRest_ne_nil : minuteRest s ≠ [] := by
  obtain ⟨w, -, hrest⟩ := h.minuteRest_eq
  simp [hrest]

/-- The indices go on behind the word the feeder stands at (R172): to the next word of the second, to the first word
of the next second, or, behind second 59, to the swap. -/
theorem AtWord.advance (hlen : v.length = 60) :
    minuteRest (advanceIndices (secondLen sym) s) = (secondWords s sym s.i).drop (s.q + 1) ++ laterWords s v s.i
    ∧ ((advanceIndices (secondLen sym) s).ms = .swapping
      ∨ ∃ sym', AtWord v sym' (advanceIndices (secondLen sym) s)) := by
  obtain ⟨hq, ht⟩ | ⟨hq, hi, ht⟩ | ⟨hq, hi, ht⟩ := advanceIndices_cases (secondLen sym) s <;> rw [ht]
  · refine ⟨?_, .inr ⟨sym, h.streaming, h.slot, h.symbol, Nat.lt_of_le_of_ne h.word hq⟩⟩
    rw [← wordsOfSecond_of_symbol s h.symbol]
    exact minuteRest_of_streaming (s := { s with q := s.q + 1 }) h.streaming h.slot
  all_goals
    have hdone : (secondWords s sym s.i).drop (s.q + 1) = [] := by simp [hq, secondWords_length]
    rw [hdone, List.nil_append]
  · obtain ⟨hlt, -⟩ := List.getElem?_eq_some_iff.1 h.symbol
    have hnext : s.i < 59 := by omega
    have hin : s.i + 1 < v.length := by omega
    refine ⟨?_, .inr ⟨v[s.i + 1], h.streaming, h.slot, List.getElem?_eq_getElem hin, secondLen_pos _⟩⟩
    rw [laterWords_of_lt s v hnext]
    exact minuteRest_of_streaming (s := { s with q := 0, i := s.i + 1 }) h.streaming h.slot
  · rw [hi, laterWords_last]
    exact ⟨minuteRest_of_swapping rfl, .inl rfl⟩

/-- `PUSHNEXT` pushes the word the feeder stands at, and leaves the rest (R172, R184). -/
theorem AtWord.pushNext {yearMax : Nat} (henc : EncVector yearMax v) (hvalid : s.tabValid = true)
    (hfull : isFull s = false) : ∃ w t, doPushNext s = .next t ∧ t.fifo = s.fifo ++ [w]
      ∧ minuteRest s = w :: minuteRest t ∧ (t.ms = .swapping ∨ ∃ sym', AtWord v sym' t) := by
  obtain ⟨w, hw, hrest⟩ := h.minuteRest_eq
  have hpush := doPushNext_pushes h.streaming hfull h.slot h.symbol (henc.lookup_eq hvalid h.symbol) hw
  rw [secondWords_length] at hpush
  have hsample : sampleEmpty s
      = { s with cntUnderrun := (sampleEmpty s).cntUnderrun, reports := (sampleEmpty s).reports } :=
    (sampleEmpty_frame s).1
  have hpushed : AtWord v sym (streamWord w (sampleEmpty s)) := by
    rw [hsample]
    exact ⟨h.streaming, h.slot, h.symbol, h.word⟩
  obtain ⟨hleft, hnext⟩ := hpushed.advance henc.length_eq
  refine ⟨w, _, hpush, ?_, ?_, hnext⟩
  · rw [advanceIndices_frame (secondLen sym), hsample]
    rfl
  · rw [hrest, hleft, hsample]
    rfl

end

/-! ## The moves of the agents -/

/-- A move that is no push puts no word into the FIFO. -/
theorem pushedIn_of_not_push {a : Action} {s t : State} (hpush : ∀ w, a ≠ .push w) (hnext : a ≠ .pushNext)
    (h : act exec a s = .next t) : pushedIn s t = [] := by
  obtain hkept | ⟨w, -, ha | ha⟩ | ⟨w, hpopped, -⟩ | ⟨hcleared, -⟩ := act_fifo h
  · rw [pushedIn, hkept, List.drop_length]
  · exact absurd ha (hpush w)
  · exact absurd ha hnext
  · rw [pushedIn, hpopped]
    exact List.drop_eq_nil_of_le (Nat.le_succ _)
  · rw [pushedIn, hcleared, List.drop_nil]

theorem pushedIn_of_append {s t : State} {w : Word} (h : t.fifo = s.fifo ++ [w]) : pushedIn s t = [w] := by
  rw [pushedIn, h, List.drop_left]

/-- After activation no move but `PUSHNEXT` and `SWAP` writes what the minute's stream is read by. -/
theorem FeederInv.act_streamPart {a : Action} {s t : State} (hi : FeederInv s) (hm : s.ms ≠ .idle) (hswap : a ≠ .swap)
    (hnext : a ≠ .pushNext) (h : Machine.act exec a s = .next t) : streamPart t = streamPart s := by
  cases a with
  | swap => exact absurd rfl hswap
  | pushNext => exact absurd rfl hnext
  | activate second =>
    obtain ⟨-, rfl⟩ | ⟨hidle, -⟩ := doActivate_cases h
    · rfl
    · exact absurd hidle hm
  | tabBuild =>
    obtain ⟨-, rfl⟩ | ⟨hinvalid, -⟩ := doTabBuild_cases h
    · rfl
    · exact absurd (hi.table_built hm) (Bool.eq_false_iff.1 hinvalid)
  | tick | lfsrStep | lfsrGen | preload _ | prime _ | edge | bgStart _ | bgFinish _ | push _ | start | stop | status
  | dump _ => exact (congrArg streamPart (act_frame h)).trans rfl

/-- `PUSHNEXT`, enabled or not, takes what it pushes off the minute. -/
theorem FeederInv.pushNext_minuteRest {s t : State} (hi : FeederInv s) (hm : s.ms ≠ .idle)
    (h : doPushNext s = .next t) : minuteRest s = pushedIn s t ++ minuteRest t ∧ t.ms ≠ .idle := by
  obtain ⟨-, rfl⟩ | ⟨hms, hfull, -⟩ := doPushNext_cases h
  · rw [pushedIn, List.drop_length]
    exact ⟨rfl, hm⟩
  · obtain ⟨v, sym, hv, hsym, hq⟩ := hi.word_bound hms
    obtain ⟨w, t', ht', hfifo, hrest, hnext⟩ :=
      AtWord.pushNext ⟨hms, hv, hsym, hq⟩ (hi.slots _ v hv) (hi.table_built hm) hfull
    cases h.symm.trans ht'
    rw [pushedIn_of_append hfifo]
    refine ⟨hrest, ?_⟩
    obtain hswap | ⟨_, hword⟩ := hnext
    · simp [hswap]
    · simp [hword.streaming]

/-- After activation a move that is neither a `SWAP` nor a push through the port takes what it pushes off the minute,
and there is no way back to `Idle`. -/
theorem FeederInv.act_minuteRest {a : Action} {s t : State} (hi : FeederInv s) (hm : s.ms ≠ .idle) (hswap : a ≠ .swap)
    (hpush : ∀ w, a ≠ .push w) (h : Machine.act exec a s = .next t) :
    minuteRest s = pushedIn s t ++ minuteRest t ∧ t.ms ≠ .idle := by
  by_cases hnext : a = .pushNext
  · subst hnext
    exact hi.pushNext_minuteRest hm h
  · have hpart := hi.act_streamPart hm hswap hnext h
    have hms : t.ms = s.ms := congrArg Prod.fst hpart
    rw [pushedIn_of_not_push hpush hnext h, minuteRest_congr hpart (hi.act_slots hm h).1, hms]
    exact ⟨rfl, hm⟩

/-! ## Runs (R235) -/

/-- A move takes its place in the agenda, and no other. -/
theorem step_agenda {s t : State} (h : step s = .next t) : t.agenda = s.agenda.tail := by
  rw [step_frame h]
  cases nextMove s <;> rfl

theorem core_run_succ {k : Nat} {s t : State} (h : Host.Core.run Sys2Proof.core (k + 1) s = .next t) :
    ∃ u, step s = .next u ∧ Host.Core.run Sys2Proof.core k u = .next t := by
  cases hs : step s with
  | next u => exact ⟨u, rfl, (core_run_next k hs).symm.trans h⟩
  | fault f =>
    have hc : Sys2Proof.core.step s = .fault f := hs
    simp [Host.Core.run, hc] at h
  | refused r =>
    have hc : Sys2Proof.core.step s = .refused r := hs
    simp [Host.Core.run, hc] at h

theorem wordTrace_succ (k : Nat) {s t : State} (h : step s = .next t) :
    wordTrace (k + 1) s = pushedIn s t ++ wordTrace k t := by
  simp [wordTrace, h]

/-- The moves within one minute (R184, R235): no next minute begins, and no word comes in through the port. -/
def KeepsMinute (a : Action) : Prop := a ≠ .swap ∧ ∀ w, a ≠ .push w

/-- Of the first moves of an agenda, the next one and those after it; behind the agenda's end the clock moves. -/
theorem keepsMinute_split {k : Nat} {s : State} (h : ∀ a ∈ s.agenda.take (k + 1), KeepsMinute a) :
    KeepsMinute (nextMove s) ∧ ∀ a ∈ s.agenda.tail.take k, KeepsMinute a := by
  unfold nextMove
  cases hagenda : s.agenda with
  | nil => exact ⟨⟨nofun, nofun⟩, by simp⟩
  | cons a rest =>
    rw [hagenda, List.take_succ_cons, List.forall_mem_cons] at h
    exact h

/-- The word trace of a run is what the run takes off the minute (R184, R235). -/
theorem FeederInv.minuteRest_eq_wordTrace {k : Nat} {s t : State} (hi : FeederInv s) (hm : s.ms ≠ .idle)
    (hkeep : ∀ a ∈ s.agenda.take k, KeepsMinute a) (h : Host.Core.run Sys2Proof.core k s = .next t) :
    minuteRest s = wordTrace k s ++ minuteRest t := by
  induction k generalizing s with
  | zero => cases h; rfl
  | succ k ih =>
    obtain ⟨u, hstep, hrun⟩ := core_run_succ h
    obtain ⟨⟨hswap, hpush⟩, hlater⟩ := keepsMinute_split hkeep
    rw [← step_agenda hstep] at hlater
    have hact := (step_next hstep).2
    have hdropped : FeederInv (dropMove s) := hi.congr rfl
    obtain ⟨hrest, hmu⟩ := hdropped.act_minuteRest hm hswap hpush hact
    calc minuteRest s = pushedIn s u ++ minuteRest u := hrest
      _ = pushedIn s u ++ (wordTrace k u ++ minuteRest t) := by rw [ih (hdropped.act hact) hmu hlater hrun]
      _ = wordTrace (k + 1) s ++ minuteRest t := by rw [wordTrace_succ k hstep, List.append_assoc]

end Sys2Proof.Machine
end

section
open Sys2Proof Machine

/-! The settled statements of 44_minute_scheduler.md: the stream of a minute. -/

/-- Settles O52: a push takes the first word of what is left, the sixty seconds are measured by their symbols, and a
run is put together from its moves. -/
theorem minuteStreamIsTheSixtyLookups : Obligations.MinuteStreamIsTheSixtyLookups := by
  refine ⟨?push, ?minute, fun k s t hi hm hkeep h => hi.minuteRest_eq_wordTrace hm hkeep h⟩
  case push =>
    intro s v sym hmoves hms hfull hvalid hv henc hsym hq
    have hword : AtWord v sym (dropMove s) := ⟨hms, hv, hsym, hq⟩
    obtain ⟨w, t, hpush, hfifo, hrest, hnext⟩ :=
      hword.pushNext henc hvalid (Bool.eq_false_of_not_eq_true (mt isFull_iff.1 hfull))
    refine ⟨w, t, (step_of_moves hmoves).trans hpush, hfifo, hrest, ?_⟩
    obtain hswap | ⟨sym', hword'⟩ := hnext
    · simp [hswap, minuteRest_of_swapping hswap]
    · exact ⟨by simp [hword'.minuteRest_ne_nil, hword'.streaming],
        fun _ => ⟨hword'.slot, sym', hword'.symbol, hword'.word⟩⟩
  case minute =>
    intro s v _ hms hv henc hi hq hvalid ht
    have hall : minuteRest s = (List.range 60).flatMap (wordsOfSecond s v) := by
      rw [minuteRest_of_streaming hms hv, hi, hq]
      rfl
    refine ⟨hall, fun j sym hsym => ?lookup, ?length, ?count⟩
    case lookup =>
      rw [wordsOfSecond_of_symbol s hsym]
      exact henc.lookup_eq hvalid hsym
    case length =>
      rw [hall, List.length_flatMap, map_wordsOfSecond henc.length_eq fun sym _ j => secondWords_length s sym j,
        sum_secondLen fun _ => henc.ne_reserved3, henc.count_minuteMark]
    case count =>
      rw [hall, totalCount_flatMap,
        map_wordsOfSecond henc.length_eq fun sym hsym j => totalCount_secondWords ht (henc.ne_reserved3 hsym) j,
        List.map_const', henc.length_eq, List.sum_replicate]
      rfl

end

section
/-! No move ends the machine with an error (R209, log entry 23): the meanings of the moves answer a next state or a
refusal in every branch. -/

namespace Sys2Proof.Machine

/-- The result is no fault. -/
def NeverFault (r : Result) : Prop := ∀ f : Fault, r ≠ .fault f

theorem NeverFault.next (t : State) : NeverFault (.next t) := nofun

theorem NeverFault.refused (r : Refusal) : NeverFault (.refused r) := nofun

theorem NeverFault.ite {c : Prop} [Decidable c] {r r' : Result} (h : NeverFault r) (h' : NeverFault r') :
    NeverFault (if c then r else r') := by
  split
  · exact h
  · exact h'

theorem tickWith_neverFault (s : State) : NeverFault (tickWith exec s) := by
  unfold tickWith
  cases s.st with
  | setupDecode =>
    cases s.fifo with
    | nil => exact .next _
    | cons w rest =>
      simp only [exec_decodeWord]
      exact beginDescriptor_not_fault _ _ _ _ _
  | stopped | highHalf1 | highHalf2 | lowHalf1 | lowHalf2 => exact .next _

theorem doPushNext_neverFault (s : State) : NeverFault (doPushNext s) := by
  refine .ite ?enabled (.next _)
  cases currentSecond s with
  | error r => exact .refused _
  | ok seq =>
    dsimp only
    cases seq[s.q]? with
    | none => exact .refused _
    | some w => exact .next _

theorem swapOverrun_neverFault (s : State) : NeverFault (swapOverrun s) := .ite (.refused _) (.next _)

theorem doSwap_neverFault (s : State) : NeverFault (doSwap s) := by
  refine .ite ?enabled (.next _)
  cases s.bg with
  | bgOk | bgInvalid => exact .next _
  | bgRunning | bgNone => exact swapOverrun_neverFault s

theorem doPrime_neverFault (r : TsAnswer) (s : State) : NeverFault (doPrime r s) := by
  refine .ite ?enabled (.next _)
  cases r.reading with
  | none => exact .refused _
  | some reading => exact .next _

theorem doBgStart_neverFault (r : TsAnswer) (s : State) : NeverFault (doBgStart r s) := by
  refine .ite ?enabled (.next _)
  cases r.reading with
  | some reading => exact .next _
  | none =>
    cases s.timeBase with
    | none => exact .refused _
    | some b => exact .next _

theorem doBgFinish_neverFault (k : Nat) (s : State) : NeverFault (doBgFinish k s) := by
  unfold doBgFinish
  cases s.tasks[k]? with
  | none => exact .next _
  | some task => exact .next _

/-- An error raised in a move is counted and reported there, and the move goes on to its end (R209). -/
theorem act_neverFault (a : Action) (s : State) : NeverFault (act exec a s) := by
  cases a with
  | tick => exact tickWith_neverFault s
  | tabBuild => exact .ite (.next _) (.ite (.next _) (.refused _))
  | preload v => exact .ite (.refused _) (.next _)
  | prime r => exact doPrime_neverFault r s
  | activate second => exact .ite (.ite (.refused _) (.next _)) (.next _)
  | pushNext => exact doPushNext_neverFault s
  | swap => exact doSwap_neverFault s
  | bgStart r => exact doBgStart_neverFault r s
  | bgFinish k => exact doBgFinish_neverFault k s
  | start => exact .ite (.next _) (.refused _)
  | lfsrStep | lfsrGen | edge | push _ | stop | status | dump _ => exact .next _

theorem step_neverFault (s : State) : NeverFault (step s) := .ite (act_neverFault _ _) (.refused _)

end Sys2Proof.Machine
end

section
open Sys2Proof Machine

/-! The settled statement of 60_exceptions.md. -/

/-- Settles O53: the counter of the error's kind goes up by one and the others by nothing, the codes are read off
their table, and no move ends in a fault. -/
theorem errorsAreCountedNeverFatal : Obligations.ErrorsAreCountedNeverFatal := by
  refine ⟨fun k info s => ?raise, ⟨rfl, rfl, rfl, rfl⟩, step_neverFault⟩
  cases k with
  | protocolInputError => exact ⟨1, 0, 0, 0, rfl, by simp⟩
  | queueUnderrun => exact ⟨0, 1, 0, 0, rfl, by simp⟩
  | scheduleOverrun => exact ⟨0, 0, 1, 0, rfl, by simp⟩
  | timeSourceUnavailable => exact ⟨0, 0, 0, 1, rfl, by simp⟩

end

section
/-! Boot priming (R233) where it is enabled: one equation for each of its cases. -/

namespace Sys2Proof.Machine

variable {s : State} {r : TsAnswer}

theorem primeEnabled_iff : primeEnabled r s = true ↔ s.ms = .idle ∧ s.primed = false ∧ r.asked = s.par.lookahead := by
  simp only [primeEnabled, Bool.and_eq_true, beq_iff_eq, Bool.not_eq_true', and_assoc]

variable (henabled : primeEnabled r s = true)
include henabled

/-- With no reading there is no time base to fall back on (R204, U18). -/
theorem doPrime_of_unavailable (hr : r.reading = none) : doPrime r s = .refused .noTimeBase := by
  simp [doPrime, henabled, hr]

/-- A vector is put into the active slot (R233). -/
theorem doPrime_of_vector {t : TimeTuple} {d : Bool} {v : TimecodeVector} (hr : r.reading = some (t, d))
    (hv : enc s.par.yearMax t d = .ok v) :
    doPrime r s = .next (setSlot s.active v { setTimeBase t d 0 s with primed := true }) := by
  simp [doPrime, henabled, hr, hv, primeSlot, reportEnc]

/-- An error is reported, and no slot is written (R201). -/
theorem doPrime_of_error {t : TimeTuple} {d : Bool} {f : Fault} (hr : r.reading = some (t, d))
    (hv : enc s.par.yearMax t d = .error f) :
    doPrime r s = .next (raiseError f (.tuple t) { setTimeBase t d 0 s with primed := true }) := by
  simp [doPrime, henabled, hr, hv, primeSlot, reportEnc]

end Sys2Proof.Machine
end

section
/-! `BOOT` from reset (R232): the state after any part of its four setup moves, and that each further one of them leads
from such a state to the next, in whatever order R232 allows. -/

namespace Sys2Proof.Machine

/-- No move looks at the agenda (R47), so a move that leads from `s` to `t` is the first step of every run from `s` with
that move listed first. -/
theorem core_run_of_act {a : Action} {s t : State} (h : act exec a s = .next t) (hp : s.par.valid = true) (k : Nat)
    (l : List Action) :
    Host.Core.run Sys2Proof.core (k + 1) (s.withAgenda (a :: l)) = Host.Core.run Sys2Proof.core k (t.withAgenda l) := by
  have hstep : step (s.withAgenda (a :: l)) = act exec a (s.withAgenda l) :=
    step_of_moves (s := s.withAgenda (a :: l)) ⟨hp, rfl⟩
  exact core_run_next k (hstep.trans ((act_withAgenda a s l).trans (congrArg (withAgenda l) h)))

/-- In a list without repetitions, the first of two entries in order stands before any place of the second. -/
theorem mem_before_of_pair_sublist {α : Type} {a b : α} {l r : List α} (hnodup : (l ++ b :: r).Nodup)
    (h : [a, b].Sublist (l ++ b :: r)) : a ∈ l := by
  obtain ⟨front, back, heq, hfront, hback⟩ := List.sublist_append_iff.1 h
  cases front with
  | cons x xs =>
    obtain ⟨rfl, -⟩ := List.cons.inj heq
    exact hfront.subset List.mem_cons_self
  | nil =>
    obtain rfl : [a, b] = back := heq
    have hlater : b ∈ r := hback.tail.subset (List.mem_singleton_self b)
    exact absurd hlater (List.nodup_cons.1 (List.nodup_append'.1 hnodup).2.1).1

/-- The boot moves before the edge, in the listed order (R232 steps 1 to 4). -/
def setupMoves (p : Params) (t : TimeTuple) (d : Bool) : List Action :=
  [.lfsrGen, .tabBuild, .preload p.clrPreload, .prime ⟨p.lookahead, some (t, d)⟩]

/-- The state that the setup moves of `done` lead to from reset, `v` being the vector of the reading. -/
def afterSetup (p : Params) (t : TimeTuple) (d : Bool) (v : TimecodeVector) (done : List Action) : State :=
  { State.reset with
    par := p
    lfsr := if .lfsrGen ∈ done then 0x110#9 else 0#9
    n := if .lfsrGen ∈ done then 512 else 0
    pat := if .lfsrGen ∈ done then specPattern else State.reset.pat
    tab := if .tabBuild ∈ done then tableWords { State.reset with par := p, pat := specPattern } else State.reset.tab
    tabValid := decide (.tabBuild ∈ done)
    clr := if .preload p.clrPreload ∈ done then p.clrPreload else State.reset.clr
    clrValid := decide (.preload p.clrPreload ∈ done)
    slot0 := if .prime ⟨p.lookahead, some (t, d)⟩ ∈ done then some v else none
    timeBase := if .prime ⟨p.lookahead, some (t, d)⟩ ∈ done then some ⟨t, d, 0⟩ else none
    primed := decide (.prime ⟨p.lookahead, some (t, d)⟩ ∈ done) }

/-- The state that all four of them lead to (see `afterSetup_of_perm`). -/
def fullySetUp (p : Params) (t : TimeTuple) (d : Bool) (v : TimecodeVector) : State :=
  { State.reset with
    par := p
    lfsr := 0x110#9
    n := 512
    pat := specPattern
    tab := tableWords { State.reset with par := p, pat := specPattern }
    tabValid := true
    clr := p.clrPreload
    clrValid := true
    slot0 := some v
    timeBase := some ⟨t, d, 0⟩
    primed := true }

section
variable {p : Params} {t : TimeTuple} {d : Bool} {v : TimecodeVector} {done : List Action}

/-- The generator runs whatever else is set up (R112, R115). -/
theorem doLfsrGen_afterSetup (hnew : .lfsrGen ∉ done) :
    doLfsrGen (afterSetup p t d v done) = .next (afterSetup p t d v (done ++ [.lfsrGen])) := by
  have hn : (afterSetup p t d v done).n = 0 := if_neg hnew
  have hreg : (afterSetup p t d v done).lfsr = 0#9 := if_neg hnew
  obtain ⟨hlast, hpat⟩ := lfsrSteps_deterministic (t := State.reset) hn hreg rfl rfl
  rw [doLfsrGen_of_start hn hreg, lfsrSteps_eq, hlast, hpat, lfsrSteps_reset.2, lfsrSteps_reset.1, hn]
  simp [afterSetup]

/-- The table is built once the pattern is complete (R127). -/
theorem doTabBuild_afterSetup (hnew : .tabBuild ∉ done) (hgen : .lfsrGen ∈ done) :
    doTabBuild (afterSetup p t d v done) = .next (afterSetup p t d v (done ++ [.tabBuild])) := by
  have hvalid : (afterSetup p t d v done).tabValid = false := decide_eq_false hnew
  have hn : (afterSetup p t d v done).n = 512 := if_pos hgen
  have htab : tableWords (afterSetup p t d v done) = tableWords { State.reset with par := p, pat := specPattern } :=
    tableWords_congr rfl (if_pos hgen)
  rw [doTabBuild_of_complete hvalid hn, htab]
  simp [afterSetup]

/-- The sequencer is stopped until `ACTIVATE`, so `PRELOAD` is taken (R144). -/
theorem doPreload_afterSetup :
    doPreload p.clrPreload (afterSetup p t d v done) = .next (afterSetup p t d v (done ++ [.preload p.clrPreload])) := by
  rw [doPreload_of_stopped (s := afterSetup p t d v done) p.clrPreload rfl]
  simp [afterSetup]

/-- `PRIME` puts the reading's vector into slot 0, the active one (R233). -/
theorem doPrime_afterSetup (hv : enc p.yearMax t d = .ok v) (hnew : .prime ⟨p.lookahead, some (t, d)⟩ ∉ done) :
    doPrime ⟨p.lookahead, some (t, d)⟩ (afterSetup p t d v done)
      = .next (afterSetup p t d v (done ++ [.prime ⟨p.lookahead, some (t, d)⟩])) := by
  have henabled : primeEnabled ⟨p.lookahead, some (t, d)⟩ (afterSetup p t d v done) = true :=
    primeEnabled_iff.2 ⟨rfl, decide_eq_false hnew, rfl⟩
  have hactive : State.reset.active = false := rfl
  rw [doPrime_of_vector henabled rfl hv]
  simp [afterSetup, setSlot, setTimeBase, hactive]

/-- Each setup move, taken once and `TAB.BUILD` after the generator, leads on. -/
theorem act_afterSetup {a : Action} (hv : enc p.yearMax t d = .ok v) (ha : a ∈ setupMoves p t d) (hnew : a ∉ done)
    (horder : a = .tabBuild → .lfsrGen ∈ done) :
    act exec a (afterSetup p t d v done) = .next (afterSetup p t d v (done ++ [a])) := by
  simp only [setupMoves, List.mem_cons, List.not_mem_nil, or_false] at ha
  obtain rfl | rfl | rfl | rfl := ha
  · exact doLfsrGen_afterSetup hnew
  · exact doTabBuild_afterSetup hnew (horder rfl)
  · exact doPreload_afterSetup
  · exact doPrime_afterSetup hv hnew

/-- The setup moves still to come lead to the state after all of them, in every order R232 allows. -/
theorem run_setup {todo : List Action} (hp : p.valid = true) (hv : enc p.yearMax t d = .ok v)
    (hperm : (done ++ todo).Perm (setupMoves p t d)) (horder : [.lfsrGen, .tabBuild].Sublist (done ++ todo))
    (k : Nat) (l : List Action) :
    Host.Core.run Sys2Proof.core (todo.length + k) ((afterSetup p t d v done).withAgenda (todo ++ l))
      = Host.Core.run Sys2Proof.core k ((afterSetup p t d v (done ++ todo)).withAgenda l) := by
  induction todo generalizing done with
  | nil => rw [List.length_nil, Nat.zero_add, List.append_nil]; rfl
  | cons a todo ih =>
    have hnodup : (done ++ a :: todo).Nodup := hperm.nodup_iff.2 (by simp [setupMoves])
    have hmem : a ∈ setupMoves p t d := hperm.subset (List.mem_append_right done List.mem_cons_self)
    have hnew : a ∉ done := fun h => List.disjoint_of_nodup_append hnodup h List.mem_cons_self
    have hact := act_afterSetup hv hmem hnew fun htab =>
      mem_before_of_pair_sublist hnodup (by rwa [htab] at horder ⊢)
    rw [List.append_cons] at hperm horder ⊢
    rw [List.length_cons, Nat.succ_add, List.cons_append, core_run_of_act hact hp]
    exact ih hperm horder

/-- All four setup moves lead to one state, in whatever order they were made (R232). -/
theorem afterSetup_of_perm (h : done.Perm (setupMoves p t d)) : afterSetup p t d v done = fullySetUp p t d v := by
  simp [afterSetup, fullySetUp, h.mem_iff, setupMoves]

end

/-- The edge and `ACTIVATE` in a machine that is set up and stopped: it streams from the start second with the
sequencer started (R171, R232 steps 5 and 6). -/
theorem run_activation {s : State} {second : Nat} (hp : s.par.valid = true) (hms : s.ms = .idle)
    (hslot : (slotAt s s.active).isSome = true) (htab : s.tabValid = true) (hclr : s.clrValid = true)
    (hst : s.st = .stopped) (hsecond : second ≤ 59) (l : List Action) :
    Host.Core.run Sys2Proof.core 2 (s.withAgenda (.edge :: .activate second :: l)) = .next { s with
      startOffset := second, i := second, q := 0, ms := .streamingCurrent, edge := false, st := .setupDecode,
      pushedAny := false, wasStarted := true, agenda := l } := by
  have henabled : activateEnabled { s with edge := true } = true :=
    activateEnabled_iff.2 ⟨hms, hslot, htab, hclr, rfl⟩
  have hedge : act exec .edge s = .next { s with edge := true } := rfl
  have hactivate : act exec (.activate second) { s with edge := true } = _ := doActivate_of_enabled henabled hsecond
  refine (core_run_of_act hedge hp 1 _).trans ((core_run_of_act hactivate hp 0 l).trans ?_)
  simp [Host.Core.run, State.withAgenda, hst]

end Sys2Proof.Machine
end

section
open Sys2Proof Machine

/-! The settled statements of 70_reset_and_hazards.md. -/

/-- Settles O47: by the reading, and what `ENC` makes of it. -/
theorem primeEffect : Obligations.PrimeEffect := by
  intro s r hmoves hasked hms hnot
  have henabled : primeEnabled r (dropMove s) = true := primeEnabled_iff.2 ⟨hms, hnot, hasked⟩
  rw [step_of_moves hmoves]
  exact ⟨doPrime_of_unavailable henabled, fun t d v => doPrime_of_vector henabled,
    fun t d hr hbad => doPrime_of_error henabled hr (enc_of_not_valid (Bool.eq_false_iff.1 hbad) d)⟩

/-- Settles O59: the setup moves lead to one state in every order, and the edge and `ACTIVATE` start the stream. -/
theorem bootReachesStreaming : Obligations.BootReachesStreaming := by
  rintro p t d v second _ rest hp hv hsecond ⟨setup, hperm, horder, rfl⟩
  have hlen : setup.length = 4 := hperm.length_eq
  have hrun := run_setup (done := []) hp hv hperm horder 2 (.edge :: .activate second :: rest)
  rw [hlen, List.nil_append, afterSetup_of_perm hperm,
    run_activation (s := fullySetUp p t d v) hp rfl rfl rfl rfl rfl hsecond] at hrun
  rw [List.append_assoc]
  exact ⟨_, hrun, rfl, rfl, rfl, tableWords_congr rfl rfl, nominalHalf_clrPreload hp, rfl, rfl, rfl, rfl, rfl, rfl, rfl,
    rfl, rfl, rfl, rfl, rfl, rfl, rfl, rfl⟩

end
